-- ==== Sys2Proof/Word.lean ====
section
/-! DEFINITION. The words of the FS32: bytes, cycle numbers and the numbers of slots, channels and lines
(spec/00_scope.md, "Conventions" and "Identifiers"). -/

namespace Sys2Proof

/-- A byte on the serial line; also one-byte codes, tags and notice sequence numbers. -/
abbrev Byte := BitVec 8

/-- A cycle number: a 32-bit count whose value after 4294967295 is 0 (00_scope.md). -/
abbrev CycleNo := BitVec 32

/-- A line value: bit `i` stands for line first + `i` of a channel's run (00_scope.md, R183). -/
abbrev LineValue := BitVec 8

/-- A channel number 0..15. -/
abbrev ChanIx := Fin 16

/-- A plan slot 0..47. -/
abbrev SlotIx := Fin 48

end Sys2Proof
end

