-- ==== Sys2Proof/Config.lean ====
section
/-! DEFINITION. Capacities and fixed times of the FS32 (00_scope.md, "Capacities"), and the one free value of the model. -/

namespace Sys2Proof.Config

/-- The shortest cycle period, µs (R28). -/
abbrev periodMin : Nat := 250
/-- The longest cycle period, µs (R28). -/
abbrev periodMax : Nat := 1000000
/-- The largest step offset, µs (R2). -/
abbrev offsetMax : Nat := 999999
/-- The record places of the queue pool (R67). -/
abbrev poolPlaces : Nat := 512
/-- The least and the greatest depth of a channel queue (R63). -/
abbrev depthMin : Nat := 4
/-- The greatest depth of a channel queue (R63). -/
abbrev depthMax : Nat := 128
/-- Ordinary entries of the notice queue (R140). -/
abbrev noticeEntries : Nat := 15
/-- Notices SENT and unacknowledged at once (R145). -/
abbrev noticeWindow : Nat := 4
/-- The notice retransmit interval, 100 ms (R147). -/
abbrev retransmitTime : Nat := 100000
/-- The instant, after the last byte of a frame, at which the gap limit is reached (R161). -/
abbrev gapLimit : Nat := 2001
/-- The start byte of a frame (R159). -/
abbrev startByte : Byte := 0xA7
/-- The longest frame body (R159). -/
abbrev bodyMax : Nat := 240
/-- The saturation point of the skip, lost and link error counts (00_scope.md, "Counters"). -/
abbrev counterMax : Nat := 65535

/-- The choices the manual leaves open ("in either order"): the `n`-th free choice made in a run. It has no body,
so nothing can be proved of its value (log 5). -/
opaque freeChoice : Nat → Nat

end Sys2Proof.Config
end

