-- ==== Sys2Proof/Syntax.lean ====
section
/-! DEFINITION. The commands of the FS32: one constructor per row of spec/opcode_table.json. -/

namespace Sys2Proof

/-- The level of a pin or of a field line. -/
inductive Level where
  | low
  | high
  deriving DecidableEq, Repr

/-- The first samples of two pins after a hardware reset (R29, R139). -/
structure FirstSamples where
  nstop : Level
  sync : Level
  deriving DecidableEq, Repr

/-- What began a hardware reset (R181). -/
inductive ResetCause where
  | powerOn
  | nreset
  deriving DecidableEq, Repr

/-- The commands. A request carries its SEQ byte and its body bytes: it is that request reaching the Dispatcher. A character
command carries the byte the receiver takes; for the rows that complete a frame it is the second CRC byte. The other rows are
events on pins and of the time base. -/
inductive Instr where
  /-- IDENTIFY (R177). -/
  | identify (seq : Byte) (body : List Byte)
  /-- STATUS (R178). -/
  | status (seq : Byte) (body : List Byte)
  /-- RESET (R179). -/
  | reset (seq : Byte) (body : List Byte)
  /-- CYCLE_SET (R30). -/
  | cycleSet (seq : Byte) (body : List Byte)
  /-- START (R31). -/
  | start (seq : Byte) (body : List Byte)
  /-- STOP (R41). -/
  | stop (seq : Byte) (body : List Byte)
  /-- STEP_PUT (R6). -/
  | stepPut (seq : Byte) (body : List Byte)
  /-- STEP_DROP (R7). -/
  | stepDrop (seq : Byte) (body : List Byte)
  /-- PLAN_HEAD (R8). -/
  | planHead (seq : Byte) (body : List Byte)
  /-- PLAN_CLEAR (R9). -/
  | planClear (seq : Byte) (body : List Byte)
  /-- PLAN_COPY (R10). -/
  | planCopy (seq : Byte) (body : List Byte)
  /-- PLAN_READ (R11). -/
  | planRead (seq : Byte) (body : List Byte)
  /-- PLAN_COMMIT (R12). -/
  | planCommit (seq : Byte) (body : List Byte)
  /-- COMMIT_CANCEL (R20). -/
  | commitCancel (seq : Byte) (body : List Byte)
  /-- CHAN_SET (R70). -/
  | chanSet (seq : Byte) (body : List Byte)
  /-- CHAN_RELEASE (R76). -/
  | chanRelease (seq : Byte) (body : List Byte)
  /-- CHAN_READ (R78). -/
  | chanRead (seq : Byte) (body : List Byte)
  /-- CHAN_EDGE (R122). -/
  | chanEdge (seq : Byte) (body : List Byte)
  /-- QUEUE_PUT (R86). -/
  | queuePut (seq : Byte) (body : List Byte)
  /-- QUEUE_TAKE (R124). -/
  | queueTake (seq : Byte) (body : List Byte)
  /-- QUEUE_FLUSH (R80). -/
  | queueFlush (seq : Byte) (body : List Byte)
  /-- SAFE (R132). -/
  | safe (seq : Byte) (body : List Byte)
  /-- RESUME (R136). -/
  | resume (seq : Byte) (body : List Byte)
  /-- SILENCE_SET (R135). -/
  | silenceSet (seq : Byte) (body : List Byte)
  /-- UNKNOWN_KIND (R174). -/
  | unknownKind (seq kind : Byte) (body : List Byte)
  /-- REQUEST_FRAME_RECEIVED (R164). -/
  | requestFrameReceived (b : Byte)
  /-- ACK (R149). -/
  | ack (b : Byte)
  /-- FRAME_DISCARDED (R162). -/
  | frameDiscarded (b : Byte)
  /-- LENGTH_BYTE_ABOVE_240 (R160). -/
  | lengthByteAbove240 (b : Byte)
  /-- FRAMING_ERROR (R159). -/
  | framingError
  /-- GAP_LIMIT (R161). -/
  | gapLimit
  /-- REPLY_SENT (R167). -/
  | replySent
  /-- NOTICE_FRAME_SENT (R167). -/
  | noticeFrameSent
  /-- HARDWARE_RESET_BEGIN (R181). -/
  | hardwareResetBegin (cause : ResetCause)
  /-- HARDWARE_RESET_END (R181), with the first samples of NSTOP and SYNC, and whether a character is under way on RXD (R168). -/
  | hardwareResetEnd (samples : FirstSamples) (midCharacter : Bool)
  /-- PERIOD_BOUNDARY (R34). -/
  | periodBoundary
  /-- SYNC_RISING_EDGE (R36). -/
  | syncRisingEdge
  /-- SYNC_DEADLINE (R37). -/
  | syncDeadline
  /-- FLYWHEEL_BOUNDARY (R38). -/
  | flywheelBoundary
  /-- STEP_FIRE (R50). -/
  | stepFire
  /-- BURST_ON_PHASE_END (R93). -/
  | burstOnPhaseEnd (ch : ChanIx)
  /-- BURST_OFF_PHASE_END (R93). -/
  | burstOffPhaseEnd (ch : ChanIx)
  /-- EDGE_LINE_CHANGE (R117). -/
  | edgeLineChange (levels : BitVec 32)
  /-- DEBOUNCE_CONFIRMED (R119). -/
  | debounceConfirmed (ch : ChanIx)
  /-- NSTOP_LOW (R133). -/
  | nstopLow
  /-- NSTOP_HIGH (R133). -/
  | nstopHigh
  /-- SILENCE_TIMER_EXPIRY (R134). -/
  | silenceTimerExpiry
  /-- RETRANSMIT_TIMER_EXPIRY (R148). -/
  | retransmitTimerExpiry
  /-- BYTE_TAKEN (R159). -/
  | byteTaken (b : Byte)
  /-- SYNC_FALLING_EDGE (R35). -/
  | syncFallingEdge
  deriving DecidableEq, Repr

end Sys2Proof
end

