-- ==== Sys2Proof/WellFormed.lean ====
section
/-! DEFINITION. Which commands are well formed: those that the link could carry or that their row can name. An ill-formed
command still has its meaning in the machine (exec is total). -/

namespace Sys2Proof

/-- The request kind codes of the table of section 10.6. -/
def requestCodes : List Byte :=
  [0x01, 0x02, 0x03, 0x04, 0x05, 0x06, 0x08, 0x09, 0x0A, 0x0B, 0x0C, 0x0D, 0x0E, 0x0F,
   0x10, 0x11, 0x12, 0x13, 0x14, 0x15, 0x16, 0x18, 0x19, 0x1A]

/-- A kind that a request frame can carry and that names no request (R162, R174): below 0x80, not 0x40, not a request code. -/
def unknownKindCode (k : Byte) : Bool :=
  decide (k.toNat < 0x80) && !(k == 0x40) && !requestCodes.contains k

/-- A body the length byte can announce (R159, R160). -/
def bodyFits (body : List Byte) : Bool := decide (body.length ≤ Config.bodyMax)

/-- The check of one command. -/
def Instr.wellFormed : Instr → Bool
  | .identify _ body | .status _ body | .reset _ body | .cycleSet _ body | .start _ body | .stop _ body
  | .stepPut _ body | .stepDrop _ body | .planHead _ body | .planClear _ body | .planCopy _ body
  | .planRead _ body | .planCommit _ body | .commitCancel _ body | .chanSet _ body | .chanRelease _ body
  | .chanRead _ body | .chanEdge _ body | .queuePut _ body | .queueTake _ body | .queueFlush _ body
  | .safe _ body | .resume _ body | .silenceSet _ body => bodyFits body
  | .unknownKind _ kind body => unknownKindCode kind && bodyFits body
  | .lengthByteAbove240 b => decide (240 < b.toNat)
  | .requestFrameReceived _ | .ack _ | .frameDiscarded _ | .framingError | .gapLimit | .replySent
  | .noticeFrameSent | .hardwareResetBegin _ | .hardwareResetEnd _ _ | .periodBoundary | .syncRisingEdge
  | .syncDeadline | .flywheelBoundary | .stepFire | .burstOnPhaseEnd _ | .burstOffPhaseEnd _
  | .edgeLineChange _ | .debounceConfirmed _ | .nstopLow | .nstopHigh | .silenceTimerExpiry
  | .retransmitTimerExpiry | .byteTaken _ | .syncFallingEdge => true

end Sys2Proof
end

