-- ==== Sys2Proof/Decode.lean ====
section
/-! DEFINITION. The command that a word spells by the bits of spec/opcode_table.json. The table gives no row any bits, so no
word spells a command (log 20). -/

namespace Sys2Proof

/-- No row of the table has bits, so there is nothing to read. -/
def decodeTableWord (_nbits _w : Nat) : Option Instr := none

end Sys2Proof
end

