-- ==== Sys2Proof/Machine/State.lean ====
section
/-! DEFINITION. The state of the FS32, block by block as the manual's block table lists it (00_scope.md), the reasons a step
can stop, and the state right after a hardware reset from power-on. -/

namespace Sys2Proof.Machine

/-! ### Plan Store (chapter 1) -/

/-- The action of a step with the channel it is applied to; MARK names none (R2). -/
inductive Action where
  | emit (ch : ChanIx)
  | sample (ch : ChanIx)
  | openWindow (ch : ChanIx)
  | closeWindow (ch : ChanIx)
  | mark
  deriving DecidableEq, Repr

/-- A step: the content of a filled slot (R2). `next` absent is END. -/
structure Step where
  offset : Nat
  action : Action
  tag : Byte
  next : Option SlotIx
  deriving DecidableEq, Repr

/-- A plan table: a head (absent: no chain) and 48 slots, each empty or holding a step (R1). -/
structure PlanTable where
  head : Option SlotIx
  slots : Vector (Option Step) 48
  deriving DecidableEq, Repr

/-- The two plan tables (R1). -/
inductive TableId where
  | a
  | b
  deriving DecidableEq, Repr

/-- The Plan Store (R1): both tables, which is ACTIVE, and the swap-pending flag. -/
structure PlanStore where
  tableA : PlanTable
  tableB : PlanTable
  active : TableId
  swapPending : Bool
  deriving DecidableEq, Repr

/-! ### Cycle Engine (chapter 2) -/

/-- The engine state (R28). -/
inductive EngineState where
  | stopped
  | armed
  | running
  deriving DecidableEq, Repr

/-- The source of boundaries (R28). -/
inductive Mode where
  | free
  | sync
  deriving DecidableEq, Repr

/-- The fields of R28. Instants are microseconds of the time base. -/
structure Engine where
  state : EngineState
  mode : Mode
  period : Nat
  cycle : CycleNo
  cycleStart : Option Nat
  stopPending : Bool
  flywheel : Bool
  nextBoundary : Option Nat
  deriving DecidableEq, Repr

/-! ### Step Walker (chapter 3) -/

/-- The walk record (R46). `pointer` absent is DONE. -/
structure Walk where
  pointer : Option SlotIx
  table : Option TableId
  cycle : Option CycleNo
  remaining : Nat
  deriving DecidableEq, Repr

/-! ### Channels (chapters 4 to 6) -/

/-- The run of lines of a channel (R63): lines first to first + width − 1 of a port. -/
structure Run where
  port : Fin 4
  first : Fin 8
  width : Nat
  deriving DecidableEq, Repr

/-- What a starving EMIT does to the lines (R90). -/
inductive StarvePolicy where
  | hold
  | idle
  deriving DecidableEq, Repr

/-- Which record an append to a full queue loses (R110). -/
inductive FullPolicy where
  | keepOld
  | keepNew
  deriving DecidableEq, Repr

/-- Which confirmed edges produce records (R63). -/
inductive EdgeSelect where
  | rise
  | fall
  | both
  deriving DecidableEq, Repr

/-- The direction of an edge (R108). -/
inductive Direction where
  | rise
  | fall
  deriving DecidableEq, Repr

/-- The outcome of the last EMIT that reached the queue (R83). -/
inductive OutputState where
  | waiting
  | driving
  | starved
  deriving DecidableEq, Repr

/-- The phase of a burst in flight (R64). -/
inductive Phase where
  | on
  | off
  deriving DecidableEq, Repr

/-- An edge window (R113). -/
inductive Window where
  | closed
  | opened
  deriving DecidableEq, Repr

/-- A BURST record (R85). -/
structure BurstRec where
  active : LineValue
  count : Nat
  onTime : Nat
  offTime : Nat
  deriving DecidableEq, Repr

/-- A burst in flight (R64, R93): its record, the pulses remaining, the phase, and the instant at which that phase has lasted
its time. -/
structure Burst where
  played : BurstRec
  remaining : Nat
  phase : Phase
  phaseEnd : Nat
  deriving DecidableEq, Repr

/-- A SAMPLE record (R108). -/
structure SampleRec where
  cycle : CycleNo
  slot : SlotIx
  value : LineValue
  deriving DecidableEq, Repr

/-- An EDGE record (R108). -/
structure EdgeRec where
  cycle : CycleNo
  offset : Nat
  line : Fin 8
  direction : Direction
  deriving DecidableEq, Repr

/-- A debounce in progress (R64, R117): the instant of the change, its cycle number and cycle time, and the new level. -/
structure Debounce where
  began : Nat
  cycle : CycleNo
  offset : Nat
  level : Level
  deriving DecidableEq, Repr

/-- The configuration fields of an output channel (R63). -/
structure OutConfig where
  run : Run
  depth : Nat
  mark : Nat
  idle : LineValue
  safe : LineValue
  starve : StarvePolicy
  deriving DecidableEq, Repr

/-- The configuration fields every input channel holds (R63). -/
structure InConfig where
  run : Run
  depth : Nat
  mark : Nat
  full : FullPolicy
  deriving DecidableEq, Repr

/-- A LEVEL_OUT channel: configuration, output state, current output value and queue (R64, R84). -/
structure LevelChan where
  cfg : OutConfig
  state : OutputState
  value : LineValue
  queue : List LineValue
  deriving DecidableEq, Repr

/-- A BURST_OUT channel: also the burst in flight and the skip count (R64). -/
structure BurstChan where
  cfg : OutConfig
  state : OutputState
  value : LineValue
  queue : List BurstRec
  burst : Option Burst
  skips : Nat
  deriving DecidableEq, Repr

/-- A SAMPLE_IN channel: configuration, queue and lost count (R64). -/
structure SampleChan where
  cfg : InConfig
  queue : List SampleRec
  lost : Nat
  deriving DecidableEq, Repr

/-- An EDGE_IN channel: also edge select, debounce time, window, settled levels (as a line value) and, per line of the run, the
debounce in progress (R63, R64). `retaken` is the model's own: per line, the instant at which a CHAN_EDGE last discarded its
debounce (R123, log 32). -/
structure EdgeChan where
  cfg : InConfig
  select : EdgeSelect
  debounce : Nat
  queue : List EdgeRec
  lost : Nat
  window : Window
  settled : LineValue
  debounces : Vector (Option Debounce) 8
  retaken : Vector (Option Nat) 8
  deriving DecidableEq, Repr

/-- A channel record: free, or configured as one of the four kinds (R63). -/
inductive Channel where
  | free
  | level (c : LevelChan)
  | burst (c : BurstChan)
  | sample (c : SampleChan)
  | edge (c : EdgeChan)
  deriving DecidableEq, Repr

/-- The Channel Table (R63, R65, R67): the records, the owner of each field line (line `n` of port `p` is entry `8p + n`), and
the free count of the pool. -/
structure ChannelTable where
  records : Vector Channel 16
  lineMap : Vector (Option ChanIx) 32
  freeCount : Nat
  deriving DecidableEq, Repr

/-! ### Safe-State Controller (chapter 7) -/

/-- A set of causes (R128). -/
structure CauseSet where
  request : Bool
  stopLine : Bool
  silence : Bool
  deriving DecidableEq, Repr

/-- The state of R128 and the SAFEOUT pin (R129). `period` is in milliseconds, `timer` the expiry instant of the silence timer
while it runs. -/
structure SafeControl where
  safe : Bool
  causes : CauseSet
  nstop : Level
  period : Nat
  timer : Option Nat
  safeOut : Level
  deriving DecidableEq, Repr

/-! ### Notice Unit (chapter 8) -/

/-- The fourteen notice kinds (section 8.6). -/
inductive NoticeKind where
  | ready
  | planSwapped
  | cycleStopped
  | syncLost
  | syncRegained
  | walkCut
  | mark
  | starved
  | refill
  | skipped
  | data
  | lost
  | safeEntered
  | overflow
  deriving DecidableEq, Repr

/-- What a block hands the Notice Unit when it raises a notice (section 8.2). -/
structure Raised where
  kind : NoticeKind
  subject : Option Byte
  detail : Nat
  cycle : CycleNo
  deriving DecidableEq, Repr

/-- The state of an entry (R140): UNSENT, or SENT with its sequence number and the resend-due mark. -/
inductive SendState where
  | unsent
  | sent (num : Byte) (resendDue : Bool)
  deriving DecidableEq, Repr

/-- An entry of the notice queue (R140). -/
structure Notice where
  kind : NoticeKind
  subject : Option Byte
  count : Nat
  cycle : CycleNo
  detail : Nat
  state : SendState
  deriving DecidableEq, Repr

/-- The Notice Unit (R140). `timer` is the expiry instant of the retransmit timer while it runs (R147). -/
structure NoticeUnit where
  queue : List Notice
  nextNum : Byte
  timer : Option Nat
  tally : Nat
  tallyCycle : CycleNo
  deriving DecidableEq, Repr

/-! ### Host Link (chapter 9) and Dispatcher (chapter 10) -/

/-- A frame without its start byte, length byte and CRC: SEQ, KIND and body (section 12.2). -/
structure Frame where
  seq : Byte
  kind : Byte
  body : List Byte
  deriving DecidableEq, Repr

/-- The part of a frame received so far, named after the state of the receiver that waits for the next byte (R159). -/
inductive Assembly where
  | len
  | seq (len : Byte)
  | kind (len seq : Byte)
  | body (len seq kind : Byte) (got : List Byte)
  | check (len seq kind : Byte) (body : List Byte) (crcLow : Option Byte)
  deriving DecidableEq, Repr

/-- The receiver: HUNT, or inside a frame with the instant of the last byte taken (R159). -/
inductive Receiver where
  | hunt
  | within (lastByte : Nat) (part : Assembly)
  deriving DecidableEq, Repr

/-- What the receiver does with the next character on RXD (R157, R168): take it; leave out the one that was under way as a hardware
reset ended; or take it once RXD has returned high after a faulty character. -/
inductive RxFront where
  | seeking
  | leavingOut
  | awaitingHigh
  deriving DecidableEq, Repr

/-- Where the transmitter took its frame from (R165). -/
inductive TxSource where
  | reply
  | notice
  deriving DecidableEq, Repr

/-- A frame on TXD: its bytes, its source and the instant at which its last byte has been sent (R165). -/
structure TxFrame where
  bytes : List Byte
  source : TxSource
  endsAt : Nat
  deriving DecidableEq, Repr

/-- The Host Link: receiver and its view of RXD, holding buffer, last-request identity with its reply, link error count, transmitter (absent: idle,
busy flag clear). -/
structure HostLink where
  rx : Receiver
  front : RxFront
  holding : Option Frame
  last : Option (Frame × Frame)
  errors : Nat
  tx : Option TxFrame
  deriving DecidableEq, Repr

/-- The reply slot (R170). -/
inductive ReplySlot where
  | empty
  | waiting (reply : Frame)
  | inTransmission (reply : Frame)
  deriving DecidableEq, Repr

/-- The Request Dispatcher (R170). -/
structure Dispatcher where
  slot : ReplySlot
  softReset : Bool
  deriving DecidableEq, Repr

/-! ### Pins -/

/-- Input pins: the SYNC level of the latest sample (R35) and the levels the machine puts on the 32 field lines, bit `8p + n` for
line `n` of port `p` (R66). -/
structure Pins where
  sync : Level
  lines : BitVec 32
  deriving DecidableEq, Repr

/-! ### The whole state -/

/-- The state of the part. `now` is the time base (R27), `hwReset` the cause of a hardware reset in progress (R181). The last five
fields are the model's own: notices raised at this instant and not yet taken by the Notice Unit, the count of free choices made,
the instant of the last clearing STATUS (log 17), the instant and channel of the last QUEUE_PUT carried out (log 16), and the
commands that wait. -/
structure State where
  now : Nat
  hwReset : Option ResetCause
  plans : PlanStore
  engine : Engine
  walk : Walk
  chans : ChannelTable
  safe : SafeControl
  notices : NoticeUnit
  link : HostLink
  disp : Dispatcher
  pins : Pins
  raising : List Raised
  choices : Nat
  clearedAt : Option Nat
  putAt : Option (Nat × ChanIx)
  pending : List Instr
  deriving DecidableEq, Repr

/-- Why a step stops with a fault. Both names belong to states that the law of R24 rules out. -/
inductive Fault where
  /-- STEP_FIRE finds the walk pointer on an empty slot: a walk never reaches one (R49). Safe. -/
  | emptySlotWalked
  /-- STEP_FIRE finds a step whose channel cannot take its action: a walk never meets one (R49, R53 to R55). Safe. -/
  | unfitChannel
  deriving DecidableEq, Repr

/-- Why a step is refused. No meaning of this model refuses a command. -/
inductive Refusal where
  /-- A command without a meaning in the model, raised by no arm now. Safe. -/
  | notModelled (mnemonic : String)
  deriving DecidableEq, Repr

/-! ### The state after a reset -/

/-- A plan table with no head and all slots empty (R4). -/
def PlanTable.empty : PlanTable := { head := none, slots := Vector.replicate 48 none }

/-- The Plan Store after either reset (R4). -/
def PlanStore.afterReset : PlanStore :=
  { tableA := PlanTable.empty, tableB := PlanTable.empty, active := .a, swapPending := false }

/-- The Cycle Engine after either reset (R29). -/
def Engine.afterReset : Engine :=
  { state := .stopped, mode := .free, period := 1000, cycle := 0, cycleStart := none,
    stopPending := false, flywheel := false, nextBoundary := none }

/-- No walk (R46, R47). -/
def Walk.absent : Walk := { pointer := none, table := none, cycle := none, remaining := 0 }

/-- Every channel free (R82). -/
def ChannelTable.afterReset : ChannelTable :=
  { records := Vector.replicate 16 .free, lineMap := Vector.replicate 32 none, freeCount := Config.poolPlaces }

/-- The empty cause set. -/
def CauseSet.none : CauseSet := { request := false, stopLine := false, silence := false }

/-- The Notice Unit with its queue emptied (R155), before READY is raised. -/
def NoticeUnit.emptied : NoticeUnit :=
  { queue := [], nextNum := 0, timer := none, tally := 0, tallyCycle := 0 }

/-- The READY entry of a reset with the subject `cause` (R154). -/
def readyEntry (cause : Byte) : Notice :=
  { kind := .ready, subject := some cause, count := 1, cycle := 0, detail := 0, state := .unsent }

/-- The Host Link after a hardware reset (R168). -/
def HostLink.afterHardwareReset : HostLink :=
  { rx := .hunt, front := .seeking, holding := none, last := none, errors := 0, tx := none }

/-- The Dispatcher after either reset (R170). -/
def Dispatcher.afterReset : Dispatcher := { slot := .empty, softReset := false }

/-- The machine right after a hardware reset that began at power-on (R4, R29, R47, R82, R139, R154, R155, R168, R170). NSTOP
high, SYNC low and the field lines low are the model's choice (log 4), and so are the time base at 0 (log 3) and `choices` at 0
(log 5). -/
def State.reset : State :=
  { now := 0
    hwReset := none
    plans := PlanStore.afterReset
    engine := Engine.afterReset
    walk := Walk.absent
    chans := ChannelTable.afterReset
    safe := { safe := false, causes := CauseSet.none, nstop := .high, period := 0, timer := none, safeOut := .high }
    notices := { NoticeUnit.emptied with queue := [readyEntry 0] }
    link := HostLink.afterHardwareReset
    disp := Dispatcher.afterReset
    pins := { sync := .low, lines := 0 }
    raising := []
    choices := 0
    clearedAt := none
    putAt := none
    pending := [] }

end Sys2Proof.Machine
end

