-- ==== Sys2Proof/Machine/Operands.lean ====
section
/-! DEFINITION. The encoding of fields (sections 12.1 to 12.7): byte order, reading body fields, the codes of enumerated fields,
line values, queue records and frames with their CRC. -/

namespace Sys2Proof.Machine

/-! ### Numbers and bytes (R182) -/

/-- The one-byte encoding of none (R182). -/
def noneByte : Byte := 0xFF

/-- A one-byte field. -/
def byteOf (n : Nat) : Byte := BitVec.ofNat 8 n

/-- A two-byte field, least significant byte first (R182). -/
def le16 (n : Nat) : List Byte := [byteOf n, byteOf (n / 256)]

/-- A four-byte field, least significant byte first (R182). -/
def le32 (n : Nat) : List Byte := [byteOf n, byteOf (n / 256), byteOf (n / 65536), byteOf (n / 16777216)]

/-- The byte at position `i` of a body whose length has been checked. -/
def byteAt (body : List Byte) (i : Nat) : Byte := body.getD i 0

/-- The one-byte number at position `i`. -/
def natAt (body : List Byte) (i : Nat) : Nat := (byteAt body i).toNat

/-- The two-byte number at position `i`. -/
def read16 (body : List Byte) (i : Nat) : Nat := natAt body i + 256 * natAt body (i + 1)

/-- The four-byte number at position `i`. -/
def read32 (body : List Byte) (i : Nat) : Nat := read16 body i + 65536 * read16 body (i + 2)

/-- A flag is sent as 0 for clear and 1 for set (R182). -/
def flagByte (b : Bool) : Byte := if b then 1 else 0

/-- A flag field of a request: above 1 is out of range (R182). -/
def flagAt (body : List Byte) (i : Nat) : Option Bool :=
  if natAt body i = 0 then some false else if natAt body i = 1 then some true else none

/-- A channel number, or out of range. -/
def chanAt (body : List Byte) (i : Nat) : Option ChanIx :=
  if h : natAt body i < 16 then some ⟨natAt body i, h⟩ else none

/-- A slot index, or out of range. -/
def slotAt (body : List Byte) (i : Nat) : Option SlotIx :=
  if h : natAt body i < 48 then some ⟨natAt body i, h⟩ else none

/-- A slot index or none (a head, a next link): the inner `none` is 0xFF, the outer one out of range. -/
def slotOrNoneAt (body : List Byte) (i : Nat) : Option (Option SlotIx) :=
  if byteAt body i = noneByte then some none else (slotAt body i).map some

/-- A counter that stays at its limit once it has reached it (00_scope.md, "Counters"). -/
def satSucc (limit n : Nat) : Nat := if n < limit then n + 1 else n

/-! ### Status codes (section 10.6) -/

def statusOk : Byte := 0x00
def statusPartial : Byte := 0x01
def statusBadLength : Byte := 0x10
def statusBadValue : Byte := 0x11
def statusUnknownKind : Byte := 0x12
def statusState : Byte := 0x20
def statusSwapPending : Byte := 0x21
def statusNotPending : Byte := 0x22
def statusPlanInvalid : Byte := 0x23
def statusNotConfigured : Byte := 0x30
def statusKind : Byte := 0x31
def statusInUse : Byte := 0x32
def statusLineTaken : Byte := 0x33
def statusNoSpace : Byte := 0x34
def statusStopActive : Byte := 0x40

/-! ### Codes of enumerated fields (section 12.3) -/

def ixByte {n : Nat} (i : Fin n) : Byte := byteOf i.val

/-- A slot or none in a reply (R182). -/
def slotByte : Option SlotIx → Byte
  | some p => ixByte p
  | none => noneByte

def TableId.code : TableId → Byte
  | .a => 0
  | .b => 1

def TableId.other : TableId → TableId
  | .a => .b
  | .b => .a

def EngineState.code : EngineState → Byte
  | .stopped => 0
  | .armed => 1
  | .running => 2

def Mode.code : Mode → Byte
  | .free => 0
  | .sync => 1

/-- Step action codes: 0 EMIT, 1 SAMPLE, 2 OPEN, 3 CLOSE, 4 MARK. -/
def Action.code : Action → Byte
  | .emit _ => 0
  | .sample _ => 1
  | .openWindow _ => 2
  | .closeWindow _ => 3
  | .mark => 4

/-- The channel an action names (R2). -/
def Action.channel? : Action → Option ChanIx
  | .emit ch | .sample ch | .openWindow ch | .closeWindow ch => some ch
  | .mark => none

/-- The channel field of a step in a reply: none for MARK (R182). -/
def Action.channelByte (a : Action) : Byte :=
  match a.channel? with
  | some ch => ixByte ch
  | none => noneByte

/-- Reading an action code with its channel field: MARK takes none and nothing else, every other action a channel 0..15 (R6). -/
def actionOf (body : List Byte) (i : Nat) : Option Action :=
  match natAt body i with
  | 0 => (chanAt body (i + 1)).map .emit
  | 1 => (chanAt body (i + 1)).map .sample
  | 2 => (chanAt body (i + 1)).map .openWindow
  | 3 => (chanAt body (i + 1)).map .closeWindow
  | 4 => if byteAt body (i + 1) = noneByte then some .mark else none
  | _ => none

/-- The kind of a channel (R63). -/
inductive ChanKind where
  | none
  | levelOut
  | burstOut
  | sampleIn
  | edgeIn
  deriving DecidableEq, Repr

def ChanKind.code : ChanKind → Byte
  | .none => 0
  | .levelOut => 1
  | .burstOut => 2
  | .sampleIn => 3
  | .edgeIn => 4

def Channel.kind : Channel → ChanKind
  | .free => .none
  | .level _ => .levelOut
  | .burst _ => .burstOut
  | .sample _ => .sampleIn
  | .edge _ => .edgeIn

/-- Whether an action accepts a channel kind (R14). -/
def Action.accepts : Action → ChanKind → Bool
  | .emit _, .levelOut | .emit _, .burstOut => true
  | .sample _, .sampleIn => true
  | .openWindow _, .edgeIn | .closeWindow _, .edgeIn => true
  | .mark, _ => true
  | _, _ => false

def StarvePolicy.code : StarvePolicy → Byte
  | .hold => 0
  | .idle => 1

def FullPolicy.code : FullPolicy → Byte
  | .keepOld => 0
  | .keepNew => 1

def EdgeSelect.code : EdgeSelect → Byte
  | .rise => 0
  | .fall => 1
  | .both => 2

def Direction.code : Direction → Byte
  | .rise => 0
  | .fall => 1

def OutputState.code : OutputState → Byte
  | .waiting => 0
  | .driving => 1
  | .starved => 2

def Phase.code : Phase → Byte
  | .on => 0
  | .off => 1

def Window.code : Window → Byte
  | .closed => 0
  | .opened => 1

def levelCode : Level → Byte
  | .low => 0
  | .high => 1

def starveOf (b : Nat) : Option StarvePolicy :=
  if b = 0 then some .hold else if b = 1 then some .idle else none

def fullOf (b : Nat) : Option FullPolicy :=
  if b = 0 then some .keepOld else if b = 1 then some .keepNew else none

def edgeSelectOf (b : Nat) : Option EdgeSelect :=
  if b = 0 then some .rise else if b = 1 then some .fall else if b = 2 then some .both else none

/-- Notice kind codes (section 12.7). -/
def NoticeKind.code : NoticeKind → Byte
  | .ready => 0x01
  | .planSwapped => 0x02
  | .cycleStopped => 0x03
  | .syncLost => 0x04
  | .syncRegained => 0x05
  | .walkCut => 0x06
  | .mark => 0x07
  | .starved => 0x08
  | .refill => 0x09
  | .skipped => 0x0A
  | .data => 0x0B
  | .lost => 0x0C
  | .safeEntered => 0x0D
  | .overflow => 0x0E

/-- The READY subject (R154): 0 power-on, 1 the NRESET pin; 2 is the RESET request. -/
def resetSubject : ResetCause → Byte
  | .powerOn => 0
  | .nreset => 1

/-! ### Line values (R183) -/

/-- The line value with every line of a run of `width` lines high. -/
def widthMask (width : Nat) : LineValue := byteOf (2 ^ width - 1)

/-- A line value with the bits at and above the width at 0 (R86, R183). -/
def maskTo (width : Nat) (v : LineValue) : LineValue := v &&& widthMask width

/-- The first line of a run among the 32 field lines, numbered from P0.0 (R71). -/
def Run.base (r : Run) : Nat := 8 * r.port.val + r.first.val

/-- Whether field line `n` belongs to the run (R65). -/
def Run.covers (r : Run) (n : Nat) : Bool := decide (r.base ≤ n) && decide (n < r.base + r.width)

/-- The line value that the levels of the 32 field lines give a run (R112). -/
def Run.read (r : Run) (lines : BitVec 32) : LineValue :=
  maskTo r.width ((lines >>> r.base).setWidth 8)

/-- The level of line `i` in a line value. -/
def levelOf (v : LineValue) (i : Fin 8) : Level := if v.getLsbD i.val then .high else .low

/-- A line value with line `i` at a level. -/
def setLevel (v : LineValue) (i : Fin 8) (l : Level) : LineValue :=
  match l with
  | .high => v ||| (1#8 <<< i.val)
  | .low => v &&& ~~~(1#8 <<< i.val)

/-- RISE if the new level is high and FALL if it is low (R119). -/
def levelDirection : Level → Direction
  | .high => .rise
  | .low => .fall

/-- Whether an edge select calls for a record of a direction (R119). -/
def EdgeSelect.takes : EdgeSelect → Direction → Bool
  | .both, _ => true
  | .rise, .rise => true
  | .fall, .fall => true
  | _, _ => false

/-! ### Queue records (section 12.6) -/

/-- A BURST record in a QUEUE_PUT body; count 0, on time 0 and off time 0 are out of range (R86). -/
def burstAt (width : Nat) (body : List Byte) (i : Nat) : Option BurstRec :=
  let r : BurstRec :=
    { active := maskTo width (byteAt body i), count := read16 body (i + 1),
      onTime := read16 body (i + 3), offTime := read16 body (i + 5) }
  if r.count = 0 ∨ r.onTime = 0 ∨ r.offTime = 0 then none else some r

/-- The `n` BURST records that stand in a body from position `i` on, or out of range. -/
def burstsAt (width : Nat) (body : List Byte) : Nat → Nat → Option (List BurstRec)
  | 0, _ => some []
  | n + 1, i =>
    match burstAt width body i, burstsAt width body n (i + 7) with
    | some r, some rs => some (r :: rs)
    | _, _ => none

def SampleRec.bytes (r : SampleRec) : List Byte := le32 r.cycle.toNat ++ [ixByte r.slot, r.value]

def EdgeRec.bytes (r : EdgeRec) : List Byte :=
  le32 r.cycle.toNat ++ le32 r.offset ++ [ixByte r.line, r.direction.code]

/-! ### Frames (section 12.2, R158) -/

/-- One bit fed into the CRC register (R158). -/
def crcBit (bit : Bool) (reg : BitVec 16) : BitVec 16 :=
  if reg.msb != bit then (reg <<< 1) ^^^ 0x1021#16 else reg <<< 1

/-- One byte fed into the CRC register, most significant bit first (R158). -/
def crcByte (reg : BitVec 16) (b : Byte) : BitVec 16 :=
  [7, 6, 5, 4, 3, 2, 1, 0].foldl (fun r i => crcBit (b.getLsbD i) r) reg

/-- The CRC over a list of bytes, from the preset 0xFFFF (R158). -/
def crc (bytes : List Byte) : BitVec 16 := bytes.foldl crcByte 0xFFFF#16

/-- The bytes from LEN to the last byte of the body, over which the CRC runs (R158). -/
def Frame.covered (f : Frame) : List Byte := byteOf f.body.length :: f.seq :: f.kind :: f.body

/-- The bytes of a frame on the line, from the start byte to the high byte of the CRC (section 12.2). -/
def Frame.bytes (f : Frame) : List Byte :=
  Config.startByte :: f.covered ++ le16 (crc f.covered).toNat

/-- What a character makes known to the receiver: nothing yet, a frame abandoned, or a complete frame with the CRC it came with. -/
inductive Heard where
  | nothing
  | abandoned
  | complete (f : Frame) (received : Nat)
  deriving DecidableEq, Repr

/-- The receiver takes a character without framing error at an instant (R159, R160). -/
def Receiver.take (now : Nat) (b : Byte) : Receiver → Receiver × Heard
  | .hunt => (if b = Config.startByte then .within now .len else .hunt, .nothing)
  | .within _ .len => if Config.bodyMax < b.toNat then (.hunt, .abandoned) else (.within now (.seq b), .nothing)
  | .within _ (.seq len) => (.within now (.kind len b), .nothing)
  | .within _ (.kind len seq) =>
    (.within now (if len = 0 then .check len seq b [] none else .body len seq b []), .nothing)
  | .within _ (.body len seq kind got) =>
    let got := got ++ [b]
    (.within now (if got.length < len.toNat then .body len seq kind got else .check len seq kind got none), .nothing)
  | .within _ (.check len seq kind body none) => (.within now (.check len seq kind body (some b)), .nothing)
  | .within _ (.check _ seq kind body (some lo)) => (.hunt, .complete ⟨seq, kind, body⟩ (lo.toNat + 256 * b.toNat))

/-- The duration of a frame of `n` bytes: `n` × 10 × 1,000,000 / 230,400 µs, rounded down (R165). -/
def frameTime (n : Nat) : Nat := n * 10000000 / 230400

/-- The reply to a request: its SEQ, its kind plus 0x80, and a body that begins with the status (R175). -/
def replyTo (f : Frame) (body : List Byte) : Frame := { seq := f.seq, kind := f.kind + 0x80, body := body }

/-- The notice frame of an entry with its sequence number (R184, section 12.7). -/
def noticeFrame (e : Notice) (num : Byte) : Frame :=
  { seq := num, kind := 0xC0,
    body := [e.kind.code, e.subject.getD noneByte, byteOf e.count] ++ le32 e.cycle.toNat ++ le16 e.detail }

end Sys2Proof.Machine
end

