-- ==== Sys2Proof/Machine/Flags.lean ====
section
/-! DEFINITION. The flag bytes of the replies: the cause set and the engine flags (section 12.3), and what is computed from the
flags of the blocks. -/

namespace Sys2Proof.Machine

/-- One cause (R128). -/
inductive Cause where
  | request
  | stopLine
  | silence
  deriving DecidableEq, Repr

/-- The SAFE_ENTERED subject (R128): 1 REQUEST, 2 STOP_LINE, 3 SILENCE. -/
def Cause.subject : Cause → Byte
  | .request => 1
  | .stopLine => 2
  | .silence => 3

/-- A cause set with a cause added (R131). -/
def CauseSet.add (c : Cause) (s : CauseSet) : CauseSet :=
  match c with
  | .request => { s with request := true }
  | .stopLine => { s with stopLine := true }
  | .silence => { s with silence := true }

/-- The cause-set byte: 0x01 REQUEST, 0x02 STOP_LINE, 0x04 SILENCE, summed (section 12.3). -/
def CauseSet.byte (s : CauseSet) : Byte :=
  flagByte s.request ||| (flagByte s.stopLine <<< 1) ||| (flagByte s.silence <<< 2)

/-- The engine-flags byte: 0x01 stop pending, 0x02 flywheel (section 12.3). -/
def Engine.flagsByte (e : Engine) : Byte := flagByte e.stopPending ||| (flagByte e.flywheel <<< 1)

/-- The level SAFEOUT shows for SAFE (R129). -/
def safeOutFor (safe : Bool) : Level := if safe then .low else .high

end Sys2Proof.Machine
end

