-- ==== Sys2Proof/Machine/Ops.lean ====
section
/-! DEFINITION. The operations the commands share: free choices, raising and sending notices, the arbiter, link errors, plan
chains and swaps, walks, the channel table, the safe state, and the Dispatcher's handling of one request. -/

namespace Sys2Proof.Machine

/-- The outcome of a command. -/
abbrev Out := Host.Outcome State Fault Refusal

/-! ### Free choices (log 5) -/

/-- One of `n` things the manual allows. With at most one there is no choice and the counter stays. -/
def choose (n : Nat) (s : State) : Nat × State :=
  if n ≤ 1 then (0, s) else (Config.freeChoice s.choices % n, { s with choices := s.choices + 1 })

/-! ### The notice queue (chapter 8) -/

def Notice.isUnsent (e : Notice) : Bool := e.state == .unsent
def Notice.isSent (e : Notice) : Bool := !e.isUnsent
def Notice.isOverflow (e : Notice) : Bool := e.kind == .overflow

/-- The ordinary entries of a queue: all but OVERFLOW (R140). -/
def ordinaryCount (q : List Notice) : Nat := q.countP fun e => !e.isOverflow

/-- The SENT entries of a queue. -/
def sentCount (q : List Notice) : Nat := q.countP Notice.isSent

/-- Folding a notice into the waiting entry of its kind and subject (R141); `none` when there is no such entry. -/
def foldNotice (r : Raised) : List Notice → Option (List Notice)
  | [] => none
  | e :: es =>
    if e.isUnsent && e.kind == r.kind && e.subject == r.subject then
      some ({ e with count := satSucc 255 e.count, cycle := r.cycle, detail := r.detail } :: es)
    else
      (foldNotice r es).map (e :: ·)

/-- The new entry a notice makes (R142). -/
def Raised.entry (r : Raised) : Notice :=
  { kind := r.kind, subject := r.subject, count := 1, cycle := r.cycle, detail := r.detail, state := .unsent }

/-- A new OVERFLOW entry (R142, R150). -/
def overflowEntry (count : Nat) (cycle : CycleNo) : Notice :=
  { kind := .overflow, subject := none, count := count, cycle := cycle, detail := 0, state := .unsent }

/-- The UNSENT OVERFLOW entry counts one more dropped notice (R142). -/
def countInOverflow (cycle : CycleNo) (e : Notice) : Notice :=
  if e.isOverflow then { e with count := satSucc 255 e.count, cycle := cycle } else e

/-- A notice dropped for want of room: it makes an OVERFLOW entry, or is counted in the UNSENT one, or in the tally (R142). -/
def NoticeUnit.drop (cycle : CycleNo) (n : NoticeUnit) : NoticeUnit :=
  match n.queue.find? Notice.isOverflow with
  | none => { n with queue := n.queue ++ [overflowEntry 1 cycle] }
  | some e =>
    if e.isUnsent then { n with queue := n.queue.map (countInOverflow cycle) }
    else { n with tally := satSucc 255 n.tally, tallyCycle := cycle }

/-- The Notice Unit takes one raised notice (R141, R142). -/
def NoticeUnit.take (r : Raised) (n : NoticeUnit) : NoticeUnit :=
  match foldNotice r n.queue with
  | some q => { n with queue := q }
  | none =>
    if ordinaryCount n.queue < Config.noticeEntries then { n with queue := n.queue ++ [r.entry] }
    else n.drop r.cycle

/-- A block raises a notice and the Notice Unit takes it at once. -/
def raise (r : Raised) (s : State) : State := { s with notices := s.notices.take r }

/-- The oldest SENT entry whose resend due is set, as it is sent again (R144). -/
def takeDue : List Notice → Option (Frame × List Notice)
  | [] => none
  | e :: es =>
    match e.state with
    | .sent num true => some (noticeFrame e num, { e with state := .sent num false } :: es)
    | _ => (takeDue es).map fun p => (p.1, e :: p.2)

/-- The oldest UNSENT entry, as it is first sent with the number `num` (R144). -/
def takeUnsent (num : Byte) : List Notice → Option (Frame × List Notice)
  | [] => none
  | e :: es =>
    match e.state with
    | .unsent => some (noticeFrame e num, { e with state := .sent num false } :: es)
    | _ => (takeUnsent num es).map fun p => (p.1, e :: p.2)

/-- What the Notice Unit offers the transmitter, with the unit as it is once the transmitter has taken it (R144, R145, R147). -/
def NoticeUnit.offer (now : Nat) (n : NoticeUnit) : Option (Frame × NoticeUnit) :=
  match takeDue n.queue with
  | some (f, q) => some (f, { n with queue := q, timer := some (now + Config.retransmitTime) })
  | none =>
    if sentCount n.queue < Config.noticeWindow then
      (takeUnsent n.nextNum n.queue).map fun p =>
        (p.1, { n with
          queue := p.2
          nextNum := n.nextNum + 1
          timer := if sentCount n.queue = 0 then some (now + Config.retransmitTime) else n.timer })
    else none

/-! ### The transmitter and its arbiter (R165, R166) -/

/-- The transmitter begins a frame. -/
def beginFrame (src : TxSource) (f : Frame) (s : State) : State :=
  { s with link := { s.link with
      tx := some { bytes := f.bytes, source := src, endsAt := s.now + frameTime f.bytes.length } } }

/-- The transmitter asks the Notice Unit and sends what it offers, if anything. -/
def sendNotice (s : State) : State :=
  match s.notices.offer s.now with
  | some (f, n) => beginFrame .notice f { s with notices := n }
  | none => s

/-- The arbiter's choice when the transmitter is free: a waiting reply first, otherwise what the Notice Unit offers (R166). Commands ask it
at their end, before any other event of the instant: the model's choice (logs 8, 39 and 40). -/
def arbitrate (s : State) : State :=
  if s.hwReset.isSome || s.link.tx.isSome then s
  else
    match s.disp.slot with
    | .waiting r => beginFrame .reply r { s with disp := { s.disp with slot := .inTransmission r } }
    | _ => sendNotice s

/-- The transmitter is free and the Notice Unit has something to offer. -/
def noticeReady (s : State) : Bool :=
  s.hwReset.isNone && s.link.tx.isNone && (s.notices.offer s.now).isSome

/-- The transmitter may take a notice at this instant or leave it for later in the same instant (R146, R166). -/
def maybeSendNotice (s : State) : State :=
  if noticeReady s then
    let c := choose 2 s
    if c.1 = 1 then sendNotice c.2 else c.2
  else s

/-! ### Notices raised at one instant (R51, R57, R143) -/

/-- The block or channel that raises a notice. The notices of one source are taken in the order they were raised. -/
def Raised.source (r : Raised) : Nat :=
  match r.kind with
  | .mark | .walkCut => 1
  | .starved | .refill | .skipped | .data | .lost => 2 + (r.subject.getD 0).toNat
  | _ => 0

/-- The oldest notice of each source. -/
def firstOfEachSource : List Raised → List Raised
  | [] => []
  | r :: rs => r :: (firstOfEachSource rs).filter fun q => q.source != r.source

/-- The Notice Unit takes the raised notices one after another: those of one source in order, those of different sources in
either order. Between two of them the transmitter may take an entry (R146). -/
def takeRaisedUpTo : Nat → State → State
  | 0, s => s
  | k + 1, s =>
    let c := choose (firstOfEachSource s.raising).length s
    match (firstOfEachSource s.raising)[c.1]? with
    | none => c.2
    | some r =>
      let s := raise r { c.2 with raising := c.2.raising.erase r }
      takeRaisedUpTo k (if s.raising.isEmpty then s else maybeSendNotice s)

/-- The Notice Unit takes every raised notice. -/
def takeRaised (s : State) : State := takeRaisedUpTo s.raising.length s

/-- Blocks raise notices, and the Notice Unit takes them, before any that a later command of the instant raises (log 42) and with no ACK
or frame end of the instant between two of them (log 44): the model's choice. -/
def raiseAll (rs : List Raised) (s : State) : State := takeRaised { s with raising := s.raising ++ rs }

/-! ### Link errors (R163) -/

/-- A link error is counted. At the instant of a clearing STATUS it may instead be swept away by the clearing that followed the
forming of the reply. -/
def linkError (s : State) : State :=
  let counted (s : State) : State :=
    { s with link := { s.link with errors := satSucc Config.counterMax s.link.errors } }
  if s.clearedAt = some s.now then
    let c := choose 2 s
    if c.1 = 1 then c.2 else counted c.2
  else counted s

/-! ### Plans (chapter 1) -/

def PlanStore.table (p : PlanStore) : TableId → PlanTable
  | .a => p.tableA
  | .b => p.tableB

/-- The active plan (R1). -/
def PlanStore.activeTable (p : PlanStore) : PlanTable := p.table p.active

/-- The standby plan (R1). -/
def PlanStore.standby (p : PlanStore) : PlanTable := p.table p.active.other

/-- The Plan Store with another standby plan. -/
def PlanStore.setStandby (t : PlanTable) (p : PlanStore) : PlanStore :=
  match p.active with
  | .a => { p with tableB := t }
  | .b => { p with tableA := t }

/-- A table with one slot replaced. -/
def PlanTable.setSlot (p : SlotIx) (x : Option Step) (t : PlanTable) : PlanTable :=
  { t with slots := t.slots.set p.val x p.isLt }

/-- The chain from a slot on, at most `fuel` slots of it (R3); it ends at END and at an empty slot. -/
def chainFrom (t : PlanTable) : Nat → Option SlotIx → List (SlotIx × Step)
  | 0, _ => []
  | _, none => []
  | fuel + 1, some p =>
    match t.slots.get p with
    | none => []
    | some st => (p, st) :: chainFrom t fuel st.next

/-- The chain of a table (R3). Forty-eight links reach every slot a chain can reach. -/
def PlanTable.chain (t : PlanTable) : List (SlotIx × Step) := chainFrom t 48 t.head

/-- Whether a step on the chain names a channel (R25). -/
def PlanTable.names (ch : ChanIx) (t : PlanTable) : Bool :=
  t.chain.any fun x => x.2.action.channel? == some ch

/-- Whether a channel is referenced (R25). -/
def PlanStore.referenced (ch : ChanIx) (p : PlanStore) : Bool :=
  p.activeTable.names ch || (p.swapPending && p.standby.names ch)

/-- The swap: the roles change and the flag is cleared (R16, R18, R19). -/
def PlanStore.swapped (p : PlanStore) : PlanStore :=
  { p with active := p.active.other, swapPending := false }

/-- The PLAN_SWAPPED notice of a swap that has just been made (R16, R18, R19). -/
def swapNotice (p : PlanStore) (cycle : CycleNo) : Raised :=
  { kind := .planSwapped, subject := some p.active.code, detail := 0, cycle := cycle }

/-- Performing a pending swap; the notices it raises (R18, R19). -/
def performSwap (s : State) : State × List Raised :=
  if s.plans.swapPending then
    let s := { s with plans := s.plans.swapped }
    (s, [swapNotice s.plans s.engine.cycle])
  else (s, [])

/-! ### The channel table (chapter 4) -/

/-- The record of a channel. -/
def State.chan (s : State) (ch : ChanIx) : Channel := s.chans.records.get ch

/-- The state with one channel record replaced. -/
def State.setChan (ch : ChanIx) (c : Channel) (s : State) : State :=
  { s with chans := { s.chans with records := s.chans.records.set ch.val c ch.isLt } }

/-- Every channel record changed by one function. -/
def ChannelTable.mapRecords (f : Channel → Channel) (t : ChannelTable) : ChannelTable :=
  { t with records := Vector.ofFn fun ch => f (t.records.get ch) }

/-- The run of a configured channel. -/
def Channel.run? : Channel → Option Run
  | .free => none
  | .level c => some c.cfg.run
  | .burst c => some c.cfg.run
  | .sample c => some c.cfg.run
  | .edge c => some c.cfg.run

/-- The places a channel holds: its depth, 0 for a free channel (R67). -/
def Channel.places : Channel → Nat
  | .free => 0
  | .level c => c.cfg.depth
  | .burst c => c.cfg.depth
  | .sample c => c.cfg.depth
  | .edge c => c.cfg.depth

/-- The fill of a channel (R68). -/
def Channel.fill : Channel → Nat
  | .free => 0
  | .level c => c.queue.length
  | .burst c => c.queue.length
  | .sample c => c.queue.length
  | .edge c => c.queue.length

/-- The current output value of an output channel (R84). -/
def Channel.outValue : Channel → Option LineValue
  | .level c => some c.value
  | .burst c => some c.value
  | _ => none

/-- The level the part drives on field line `n`; `none` is high impedance (R66). -/
def lineDrive (s : State) (n : Fin 32) : Option Level :=
  match s.chans.lineMap.get n with
  | none => none
  | some ch =>
    match (s.chan ch).outValue, (s.chan ch).run? with
    | some v, some r => some (if v.getLsbD (n.val - r.base) then .high else .low)
    | _, _ => none

/-- The level of the bit at position `n` of a row of characters on the line: of ten bits a character, the first is the low start bit,
then come the eight data bits, least significant first, and the high stop bit; past the last character the line rests high (R157). -/
def bitOnLine (bytes : List Byte) (n : Nat) : Level :=
  match bytes[n / 10]? with
  | none => .high
  | some b => if n % 10 = 0 then .low else if n % 10 = 9 ∨ b.getLsbD (n % 10 - 1) then .high else .low

/-- The level of TXD: high while no frame is being sent (R157, R165, R168), and otherwise the bit that the frame has reached, at
230,400 bits a second from its beginning. -/
def txdLevel (s : State) : Level :=
  match s.link.tx with
  | none => .high
  | some f => bitOnLine f.bytes ((s.now + frameTime f.bytes.length - f.endsAt) * 230400 / 1000000)

/-- All channel numbers, in ascending order. -/
def allChans : List ChanIx := List.finRange 16

/-- All lines of a run, in ascending order. -/
def allLines : List (Fin 8) := List.finRange 8

/-- Entry into the safe state at one channel: an output takes its safe value and a burst in flight is cut (R99). -/
def Channel.toSafe : Channel → Channel
  | .level c => .level { c with value := c.cfg.safe }
  | .burst c => .burst { c with value := c.cfg.safe, burst := none }
  | c => c

/-- STOP NOW at one channel: a burst in flight is cut and the lines take the idle value (R102). -/
def Channel.cutBurst : Channel → Channel
  | .burst c => if c.burst.isSome then .burst { c with value := c.cfg.idle, burst := none } else .burst c
  | c => c

/-- No debounce in progress on any line. -/
def noDebounces : Vector (Option Debounce) 8 := Vector.replicate 8 none

/-- Closing an edge window: every debounce in progress is discarded, the settled levels stay (R115). -/
def Channel.closeWindow : Channel → Channel
  | .edge c => if c.window = .opened then .edge { c with window := .closed, debounces := noDebounces } else .edge c
  | c => c

/-! ### The walk (chapter 3) -/

/-- The walk of a cycle begins, from the plan that is ACTIVE (R48). -/
def beginWalk (s : State) : State :=
  { s with walk :=
      { pointer := s.plans.activeTable.head
        table := some s.plans.active
        cycle := some s.engine.cycle
        remaining := s.plans.activeTable.chain.length } }

/-- A boundary ends the walk of the cycle it ends; a walk that is not DONE is cut (R57). -/
def endWalk (s : State) : State × List Raised :=
  ({ s with walk := Walk.absent },
    match s.walk.pointer with
    | none => []
    | some _ =>
      [{ kind := .walkCut, subject := none, detail := s.walk.remaining, cycle := s.walk.cycle.getD s.engine.cycle }])

/-- The slot at the walk pointer with its content and the instant at which it fires (R50). -/
def stepAtPointer (s : State) : Option (SlotIx × Option (Step × Nat)) :=
  match s.walk.pointer, s.walk.table, s.engine.cycleStart with
  | some p, some id, some start => some (p, ((s.plans.table id).slots.get p).map fun st => (st, start + st.offset))
  | _, _, _ => none

/-- The step at the walk pointer fires at this instant (R50). -/
def stepDue (s : State) : Bool :=
  s.hwReset.isNone &&
    match stepAtPointer s with
    | some (_, some (_, t)) => t == s.now
    | _ => false

/-! ### Cycles and stops (chapter 2) -/

/-- The cycle time, while a cycle is in progress (R27). -/
def State.cycleTime (s : State) : Option Nat := s.engine.cycleStart.map (s.now - ·)

/-- The next internal boundary of a cycle that starts at an instant (R28). -/
def Engine.boundaryAfter (e : Engine) (start : Nat) : Nat :=
  match e.mode with
  | .free => start + e.period
  | .sync => if e.flywheel then start + e.period else start + e.period + e.period / 8

/-- The engine in a cycle that starts at an instant. -/
def Engine.startCycle (start : Nat) (e : Engine) : Engine :=
  { e with state := .running, cycleStart := some start, nextBoundary := some (e.boundaryAfter start) }

/-- A debounce that was begun by the sample of this instant belongs to the cycle that the boundary of this instant begins, at cycle
time 0 (R121); an older one keeps its stamp. -/
def Debounce.restamp (now : Nat) (cycle : CycleNo) (d : Debounce) : Debounce :=
  if d.began = now then { d with cycle := cycle, offset := 0 } else d

/-- The stamps of one channel's debounces at a boundary (R121, log 14). Records already queued are not touched. -/
def Channel.restamp (now : Nat) (cycle : CycleNo) : Channel → Channel
  | .edge c => .edge { c with debounces := c.debounces.map (Option.map (Debounce.restamp now cycle)) }
  | c => c

/-- The channel table as a boundary that begins a cycle leaves it. Where the cycle that ends began at this same instant, the samples
taken before it have been stamped by that cycle's own boundary (R121). -/
def stampAtBoundary (cycle : CycleNo) (s : State) : ChannelTable :=
  if s.engine.cycleStart = some s.now then s.chans else s.chans.mapRecords (Channel.restamp s.now cycle)

/-- The boundary is handed on: the Plan Store performs a pending swap and the Walker ends the old walk and begins the new one
(R33, R48, R57). The notices of the boundary are taken here, before those of the steps at offset 0 of the cycle it begins: the model's
choice (R143, log 41), as is that no ACK or frame end comes between two of them (log 44). -/
def handOn (s : State) : State :=
  let p := performSwap s
  let w := endWalk p.1
  raiseAll (p.2 ++ w.2) (beginWalk w.1)

/-- A boundary that begins a further cycle (R33): the flywheel flag as its source leaves it, and the notice of its source. Notices of
steps fired just before it at the same instant are taken before its own: the model's choice (logs 30 and 42), as is that no ACK or frame end comes between those of the boundary (log 44). -/
def newCycle (flywheel : Bool) (source : Option NoticeKind) (s : State) : State :=
  let s := takeRaised s
  let cycle := s.engine.cycle + 1
  let s := { s with
    chans := stampAtBoundary cycle s
    engine := Engine.startCycle s.now { s.engine with cycle := cycle, flywheel := flywheel } }
  handOn (match source with
    | some k => raise { kind := k, subject := none, detail := 0, cycle := cycle } s
    | none => s)

/-- The first rising SYNC edge after START: cycle 0 begins and its number stays 0 (R32). -/
def firstCycle (s : State) : State :=
  handOn { s with engine := Engine.startCycle s.now s.engine }

/-- What entry into STOPPED does to a channel: windows close, and a STOP NOW cuts bursts (R43, R102, R113, R115). -/
def Channel.atStop (now : Bool) (c : Channel) : Channel :=
  if now then c.cutBurst.closeWindow else c.closeWindow

/-- Entry into STOPPED (R43); `now` for a STOP NOW, `cut` the WALK_CUT that the boundary of the stop raised (R61). Notices of a step or a
debounce that an earlier command of this instant had taken stand before these, and no ACK or frame end comes between two of these: the model's choice (R143, logs 42 and
44). -/
def enterStopped (now : Bool) (cut : List Raised) (s : State) : State :=
  let p := performSwap s
  let s := p.1
  raiseAll
    (p.2 ++ { kind := .cycleStopped, subject := none, detail := if now then 1 else 0, cycle := s.engine.cycle } :: cut)
    { s with
      engine := { s.engine with
        state := .stopped, stopPending := false, flywheel := false, cycleStart := none, nextBoundary := none }
      walk := Walk.absent
      chans := s.chans.mapRecords (Channel.atStop now) }

/-- A boundary with stop pending begins no cycle: the walk ends as at any boundary and the engine stops (R42, R61). -/
def stopAtBoundary (s : State) : State :=
  let w := endWalk s
  enterStopped false w.2 w.1

/-- A boundary taken while RUNNING (R33, R42). -/
def boundary (flywheel : Bool) (source : Option NoticeKind) (s : State) : State :=
  if s.engine.stopPending then stopAtBoundary s else newCycle flywheel source s

/-! ### The safe state (chapter 7) -/

/-- The silence timer restarted with a period: stopped if the period is 0 (R134). -/
def silenceExpiry (period now : Nat) : Option Nat := if period = 0 then none else some (now + period * 1000)

/-- A restart of the silence timer with the period held (R134). -/
def restartSilence (s : State) : State :=
  { s with safe := { s.safe with timer := silenceExpiry s.safe.period s.now } }

/-- A cause is applied: entry into the safe state (R130), or one more cause in the set (R131). SAFE_ENTERED is taken before the
notices of steps fired at this instant that are still held, and after those already taken: the model's choice (logs 31 and 42). -/
def applyCause (c : Cause) (s : State) : State :=
  if s.safe.safe then { s with safe := { s.safe with causes := s.safe.causes.add c } }
  else
    raise { kind := .safeEntered, subject := some c.subject, detail := 0, cycle := s.engine.cycle }
      { s with
        safe := { s.safe with safe := true, causes := CauseSet.none.add c, safeOut := .low }
        chans := s.chans.mapRecords Channel.toSafe }

/-! ### Resets (chapter 10) -/

/-- The blocks that both resets bring to one state: plans, engine, walk, channels, Notice Unit, and the model's own list of
raised notices (R4, R29, R47, R82, R155). -/
def clearBlocks (s : State) : State :=
  { s with
    plans := PlanStore.afterReset
    engine := Engine.afterReset
    walk := Walk.absent
    chans := ChannelTable.afterReset
    notices := NoticeUnit.emptied
    raising := [] }

/-- READY is raised with the cause of the reset, and then STOP_LINE is applied if NSTOP is low (R139, R154). -/
def announceReset (cause : Byte) (s : State) : State :=
  let s := raise { kind := .ready, subject := some cause, detail := 0, cycle := 0 } s
  if s.safe.nstop = .low then applyCause .stopLine s else s

/-- The soft reset takes effect (R180): the link is kept, SAFE is cleared and the silence timer restarted with the kept period. -/
def softReset (s : State) : State :=
  let s := clearBlocks s
  announceReset 2
    { s with
      safe := { s.safe with
        safe := false, causes := CauseSet.none, safeOut := .high, timer := silenceExpiry s.safe.period s.now }
      disp := { s.disp with softReset := false } }

/-! ### One request at the Dispatcher (chapter 10) -/

/-- A QUEUE_PUT reply with another fill, its third byte (section 12.5). -/
def Frame.withFill (fill : Nat) (r : Frame) : Frame := { r with body := r.body.take 2 ++ [byteOf fill] }

/-- The reply slot with its reply changed. -/
def ReplySlot.map (f : Frame → Frame) : ReplySlot → ReplySlot
  | .empty => .empty
  | .waiting r => .waiting (f r)
  | .inTransmission r => .inTransmission (f r)

/-- The reply to a QUEUE_PUT carried out on this channel at this instant reports the fill that an EMIT of the same instant leaves
(R88, log 16): in the reply slot, in the cache and, if it is the frame just begun, on TXD. -/
def reportFill (ch : ChanIx) (fill : Nat) (s : State) : State :=
  if s.putAt = some (s.now, ch) then
    { s with
      disp := { s.disp with slot := s.disp.slot.map (Frame.withFill fill) }
      link := { s.link with
        last := s.link.last.map fun x => (x.1, x.2.withFill fill)
        tx := match s.disp.slot with
          | .inTransmission r => s.link.tx.map fun x => { x with bytes := (r.withFill fill).bytes }
          | _ => s.link.tx } }
  else s

/-- How a block carries a request out: from the body and the state, the state it leaves and the reply body. -/
abbrev Carry := List Byte → State → State × List Byte

/-- A refusal at the common checks, and any other answer of the status alone that changes nothing (R175). -/
def answer (status : Byte) (s : State) : State × List Byte := (s, [status])

/-- The common length check (R174). -/
def withLength (n : Nat) (body : List Byte) (s : State) (k : State × List Byte) : State × List Byte :=
  if body.length = n then k else answer statusBadLength s

/-- A reply is placed in the reply slot. -/
def placeReply (r : Frame) (s : State) : State := { s with disp := { s.disp with slot := .waiting r } }

/-- The Dispatcher takes a request out of the holding buffer: a duplicate is answered from the cache, any other request is
carried out and stored with its reply (R171 to R173). -/
def serve (f : Frame) (carry : Carry) (s : State) : State :=
  let s := { s with link := { s.link with holding := none } }
  match s.link.last with
  | some (g, r) =>
    if g = f then placeReply r s
    else
      let p := carry f.body s
      let r := replyTo f p.2
      placeReply r { p.1 with link := { p.1.link with last := some (f, r) } }
  | none =>
    let p := carry f.body s
    let r := replyTo f p.2
    placeReply r { p.1 with link := { p.1.link with last := some (f, r) } }

/-- The arbiter after a request: a notice that the request itself raised may be taken before its reply is placed (R166, log 9). -/
def arbitrateAfter (ready : Bool) (s : State) : State :=
  if !ready && noticeReady s then
    let c := choose 2 s
    if c.1 = 1 then sendNotice c.2 else arbitrate c.2
  else arbitrate s

/-- Whether the Dispatcher can take the request (R171): no hardware reset, the reply slot empty, and no other request in the
holding buffer before it. -/
def canTake (f : Frame) (s : State) : Bool :=
  s.hwReset.isNone && s.disp.slot == .empty && (s.link.holding == none || s.link.holding == some f)

/-- A request at the Dispatcher. One that cannot be taken at this instant is not taken (log 6). -/
def dispatch (f : Frame) (carry : Carry) (s : State) : State :=
  if canTake f s then arbitrateAfter (noticeReady s) (serve f carry s) else s

/-- The events of the part that happen only while no hardware reset lasts (R181). -/
def whenPowered (s : State) (k : State) : Out := .next (if s.hwReset.isSome then s else k)

end Sys2Proof.Machine
end

