-- ==== Sys2Proof/Machine/Notices.lean ====
section
/-! DEFINITION. The Notice Unit (chapter 8): acknowledgments, the retransmit timer, and the end of a notice frame. -/

namespace Sys2Proof.Machine

/-- Whether an entry is SENT with a number. -/
def Notice.hasNumber (num : Byte) (e : Notice) : Bool :=
  match e.state with
  | .sent n _ => n == num
  | .unsent => false

/-- The queue with the SENT entry of a number and every SENT entry older than it removed, and the entries removed; `none` when no
SENT entry has the number (R149). -/
def removeThrough (num : Byte) : List Notice → Option (List Notice × List Notice)
  | [] => none
  | e :: es =>
    if e.hasNumber num then some (es, [e])
    else
      (removeThrough num es).map fun p => if e.isSent then (p.1, e :: p.2) else (e :: p.1, p.2)

/-- The new OVERFLOW entry that an ACK of the SENT one makes from a tally above 0 (R150). -/
def NoticeUnit.renewOverflow (removed : List Notice) (n : NoticeUnit) : NoticeUnit :=
  if removed.any Notice.isOverflow && n.tally != 0 then
    { n with queue := n.queue ++ [overflowEntry n.tally n.tallyCycle], tally := 0 }
  else n

/-- The Notice Unit takes an ACK of a number (R147, R149, R150). -/
def NoticeUnit.ack (now : Nat) (num : Byte) (n : NoticeUnit) : NoticeUnit :=
  match removeThrough num n.queue with
  | none => n
  | some (rest, removed) =>
    NoticeUnit.renewOverflow removed
      { n with queue := rest, timer := if sentCount rest = 0 then none else some (now + Config.retransmitTime) }

/-- An acknowledgment frame at the Notice Unit: one whose body is not one byte is ignored (R149, R184). -/
def takeAck (body : List Byte) (s : State) : State :=
  match body with
  | [num] => { s with notices := s.notices.ack s.now num }
  | _ => s

/-- The resend-due mark on a SENT entry (R148). -/
def Notice.markDue (e : Notice) : Notice :=
  match e.state with
  | .sent num _ => { e with state := .sent num true }
  | .unsent => e

/-- The retransmit timer is at its expiry instant (R147). -/
def retransmitDue (s : State) : Bool := s.hwReset.isNone && s.notices.timer == some s.now

/-- RETRANSMIT_TIMER_EXPIRY: the timer stops and every SENT entry becomes due (R148). A free transmitter takes the oldest of them at once,
before any ACK of the same instant: the model's choice (R151, log 40). -/
def execRetransmitTimerExpiry (s : State) : Out :=
  .next
    (if retransmitDue s then
      arbitrate { s with notices := { s.notices with timer := none, queue := s.notices.queue.map Notice.markDue } }
    else s)

/-- The frame in transmission is of a source and its last byte is sent at this instant (R165, R167). -/
def frameDue (src : TxSource) (s : State) : Bool :=
  s.hwReset.isNone &&
    match s.link.tx with
    | some f => f.source == src && f.endsAt == s.now
    | none => false

/-- The transmitter clears its busy flag (R167). -/
def freeTransmitter (s : State) : State := { s with link := { s.link with tx := none } }

/-- NOTICE_FRAME_SENT: the last byte of a notice frame is sent and the arbiter chooses the next frame (R166, R167). -/
def execNoticeFrameSent (s : State) : Out :=
  .next (if frameDue .notice s then arbitrate (freeTransmitter s) else s)

end Sys2Proof.Machine
end

