-- ==== Sys2Proof/Machine/Engine.lean ====
section
/-! DEFINITION. The Cycle Engine (chapter 2): CYCLE_SET, START, STOP, and the boundaries. -/

namespace Sys2Proof.Machine

/-! ### Requests -/

/-- The first slot of the active chain whose offset is not below a proposed period (R26). -/
def slotBeyond (period : Nat) (t : PlanTable) : Option SlotIx :=
  (t.chain.find? fun x => decide (period ≤ x.2.offset)).map (·.1)

/-- A mode code: 0 FREE, 1 SYNC (R30). -/
def modeOf (b : Nat) : Option Mode :=
  if b = 0 then some .free else if b = 1 then some .sync else none

/-- CYCLE_SET (R30). -/
def carryCycleSet : Carry := fun body s =>
  withLength 5 body s
    (match modeOf (natAt body 4) with
    | none => answer statusBadValue s
    | some mode =>
      let period := read32 body 0
      if period < Config.periodMin ∨ Config.periodMax < period then answer statusBadValue s
      else if s.engine.state ≠ .stopped then answer statusState s
      else
        match slotBeyond period s.plans.activeTable with
        | some p => (s, [statusPlanInvalid, 3, ixByte p])
        | none => ({ s with engine := { s.engine with period := period, mode := mode } }, [statusOk]))

/-- CYCLE_SET: the Dispatcher takes the request (R30). -/
def execCycleSet (seq : Byte) (body : List Byte) (s : State) : Out :=
  .next (dispatch ⟨seq, 0x04, body⟩ carryCycleSet s)

/-- START (R31). -/
def carryStart : Carry := fun body s =>
  withLength 0 body s
    (if s.engine.state ≠ .stopped then answer statusState s
    else
      let e := { s.engine with cycle := 0 }
      match s.engine.mode with
      | .free => (beginWalk { s with engine := e.startCycle s.now }, [statusOk, EngineState.running.code])
      | .sync => ({ s with engine := { e with state := .armed } }, [statusOk, EngineState.armed.code]))

/-- START: the Dispatcher takes the request (R31). -/
def execStart (seq : Byte) (body : List Byte) (s : State) : Out :=
  .next (dispatch ⟨seq, 0x05, body⟩ carryStart s)

/-- What STOP does in each engine state (R41); `now` is the *when* field. -/
def stopEngine (now : Bool) (s : State) : State :=
  match s.engine.state with
  | .stopped => s
  | .armed => enterStopped now [] s
  | .running =>
    if now then enterStopped true [] s
    else { s with engine := { s.engine with stopPending := true } }

/-- STOP (R41): the reply carries the engine as the request left it. -/
def carryStop : Carry := fun body s =>
  withLength 1 body s
    (match flagAt body 0 with
    | none => answer statusBadValue s
    | some now =>
      let s := stopEngine now s
      (s, [statusOk, s.engine.state.code, flagByte s.engine.stopPending] ++ le32 s.engine.cycle.toNat))

/-- STOP: the Dispatcher takes the request (R41). -/
def execStop (seq : Byte) (body : List Byte) (s : State) : Out :=
  .next (dispatch ⟨seq, 0x06, body⟩ carryStop s)

/-! ### Boundaries -/

/-- The engine is RUNNING and its next internal boundary is this instant (R28). -/
def boundaryDue (s : State) : Bool :=
  s.hwReset.isNone && s.engine.state == .running && s.engine.nextBoundary == some s.now

/-- A period boundary is due (R34). -/
def periodDue (s : State) : Bool := boundaryDue s && s.engine.mode == .free

/-- The SYNC deadline is reached (R37). -/
def deadlineDue (s : State) : Bool := boundaryDue s && s.engine.mode == .sync && !s.engine.flywheel

/-- A flywheel boundary is due (R38). -/
def flywheelDue (s : State) : Bool := boundaryDue s && s.engine.mode == .sync && s.engine.flywheel

/-- PERIOD_BOUNDARY: in FREE mode the cycle time reaches the period (R34). -/
def execPeriodBoundary (s : State) : Out :=
  .next (if periodDue s then arbitrate (boundary s.engine.flywheel none s) else s)

/-- SYNC_DEADLINE: the engine makes the boundary itself, sets flywheel and raises SYNC_LOST (R37). -/
def execSyncDeadline (s : State) : Out :=
  .next (if deadlineDue s then arbitrate (boundary true (some .syncLost) s) else s)

/-- FLYWHEEL_BOUNDARY: a boundary of the engine's own, one period after the cycle start (R38). -/
def execFlywheelBoundary (s : State) : Out :=
  .next (if flywheelDue s then arbitrate (boundary true none s) else s)

/-- What a rising SYNC edge is to the engine (R32, R35, R36, R39). -/
def risingEdge (s : State) : State :=
  match s.engine.mode, s.engine.state with
  | .sync, .armed => firstCycle s
  | .sync, .running =>
    if s.engine.flywheel then boundary false (some .syncRegained) s else boundary false none s
  | _, _ => s

/-- SYNC_RISING_EDGE: a sample finds SYNC high. It is a rising edge when the sample before found SYNC low (R35). -/
def execSyncRisingEdge (s : State) : Out :=
  whenPowered s
    (if s.pins.sync = .high then s
    else arbitrate (risingEdge { s with pins := { s.pins with sync := .high } }))

/-- SYNC_FALLING_EDGE: a sample finds SYNC low, and nothing but the sampled level changes (R35). -/
def execSyncFallingEdge (s : State) : Out :=
  whenPowered s { s with pins := { s.pins with sync := .low } }

end Sys2Proof.Machine
end

