-- ==== Sys2Proof/Machine/Outputs.lean ====
section
/-! DEFINITION. Output channels (chapter 5): EMIT, bursts and QUEUE_PUT. -/

namespace Sys2Proof.Machine

/-! ### EMIT -/

/-- The lines of a starving EMIT under a policy (R90). -/
def StarvePolicy.value (p : StarvePolicy) (held idle : LineValue) : LineValue :=
  match p with
  | .hold => held
  | .idle => idle

/-- A notice about a channel, with the channel number as its subject (R106, R126). -/
def channelNotice (kind : NoticeKind) (ch : ChanIx) (detail : Nat) (cycle : CycleNo) : Raised :=
  { kind := kind, subject := some (ixByte ch), detail := detail, cycle := cycle }

/-- The low-water judgement after a pop that left `fill` records (R97). -/
def judgeLowWater (ch : ChanIx) (mark fill : Nat) (cycle : CycleNo) : List Raised :=
  if mark ≠ 0 ∧ fill = mark then [channelNotice .refill ch fill cycle] else []

/-- STARVED is raised only on entry into STARVED (R91). -/
def judgeStarved (ch : ChanIx) (slot : SlotIx) (state : OutputState) (cycle : CycleNo) : List Raised :=
  if state = .starved then [] else [channelNotice .starved ch slot.val cycle]

/-- An EMIT on a LEVEL_OUT channel while SAFE is clear: it pops the oldest record or starves (R89, R91). -/
def LevelChan.emit (ch : ChanIx) (slot : SlotIx) (cycle : CycleNo) (c : LevelChan) : LevelChan × List Raised :=
  match c.queue with
  | v :: q => ({ c with queue := q, value := v, state := .driving }, judgeLowWater ch c.cfg.mark q.length cycle)
  | [] =>
    ({ c with value := c.cfg.starve.value c.value c.cfg.idle, state := .starved }, judgeStarved ch slot c.state cycle)

/-- A burst starts at an instant, in phase ON (R92, R93). -/
def BurstRec.begin (r : BurstRec) (now : Nat) : Burst :=
  { played := r, remaining := r.count, phase := .on, phaseEnd := now + r.onTime }

/-- An EMIT on a BURST_OUT channel while SAFE is clear: it is skipped on a burst in flight, starts the oldest record's burst, or
starves (R92, R96). -/
def BurstChan.emit (now : Nat) (ch : ChanIx) (slot : SlotIx) (cycle : CycleNo) (c : BurstChan) : BurstChan × List Raised :=
  match c.burst, c.queue with
  | some _, _ =>
    ({ c with skips := satSucc Config.counterMax c.skips }, [channelNotice .skipped ch slot.val cycle])
  | none, r :: q =>
    ({ c with queue := q, value := r.active, state := .driving, burst := some (r.begin now) },
      judgeLowWater ch c.cfg.mark q.length cycle)
  | none, [] =>
    ({ c with value := c.cfg.starve.value c.value c.cfg.idle, state := .starved }, judgeStarved ch slot c.state cycle)

/-! ### The phases of a burst (R93) -/

/-- The burst in flight on a channel. -/
def Channel.burst? : Channel → Option Burst
  | .burst c => c.burst
  | _ => none

/-- A phase of the burst in flight on a channel has lasted its time at this instant. -/
def phaseDue (phase : Phase) (ch : ChanIx) (s : State) : Bool :=
  s.hwReset.isNone &&
    match (s.chan ch).burst? with
    | some b => b.phase == phase && b.phaseEnd == s.now
    | none => false

/-- The end of an ON phase: the phase becomes OFF and the lines take the idle value (R93). -/
def BurstChan.endOn (now : Nat) (c : BurstChan) : BurstChan :=
  { c with
    value := c.cfg.idle
    burst := c.burst.map fun b => { b with phase := .off, phaseEnd := now + b.played.offTime } }

/-- The end of an OFF phase: one pulse less remains; the next ON phase begins, or the burst ends at the idle value (R93). -/
def BurstChan.endOff (now : Nat) (c : BurstChan) : BurstChan :=
  match c.burst with
  | none => c
  | some b =>
    if b.remaining ≤ 1 then { c with value := c.cfg.idle, burst := none }
    else
      { c with
        value := b.played.active
        burst := some { b with remaining := b.remaining - 1, phase := .on, phaseEnd := now + b.played.onTime } }

/-- A change of a BURST_OUT channel. -/
def Channel.onBurst (f : BurstChan → BurstChan) : Channel → Channel
  | .burst c => .burst (f c)
  | c => c

/-- BURST_ON_PHASE_END on a channel (R93). -/
def execBurstOnPhaseEnd (ch : ChanIx) (s : State) : Out :=
  .next (if phaseDue .on ch s then s.setChan ch ((s.chan ch).onBurst (BurstChan.endOn s.now)) else s)

/-- BURST_OFF_PHASE_END on a channel (R93). -/
def execBurstOffPhaseEnd (ch : ChanIx) (s : State) : Out :=
  .next (if phaseDue .off ch s then s.setChan ch ((s.chan ch).onBurst (BurstChan.endOff s.now)) else s)

/-! ### QUEUE_PUT (R86 to R88); `putAt` remembers the last one carried out, for an EMIT of the same instant (log 16) -/

/-- The reply of a QUEUE_PUT that passes its checks: `k` accepted of `n`, and the fill after it (R87). -/
def putReply (k n fill : Nat) : List Byte :=
  [if k = n then statusOk else statusPartial, byteOf k, byteOf fill]

/-- QUEUE_PUT on a LEVEL_OUT channel: records of one byte (R86, R87). -/
def putLevels (ch : ChanIx) (c : LevelChan) (body : List Byte) (s : State) : State × List Byte :=
  let rs := body.tail
  if rs.length < 1 ∨ 16 < rs.length then answer statusBadLength s
  else
    let k := min rs.length (c.cfg.depth - c.queue.length)
    let q := c.queue ++ (rs.take k).map (maskTo c.cfg.run.width)
    ({ s.setChan ch (.level { c with queue := q }) with putAt := some (s.now, ch) }, putReply k rs.length q.length)

/-- QUEUE_PUT on a BURST_OUT channel: records of seven bytes (R86, R87). -/
def putBursts (ch : ChanIx) (c : BurstChan) (body : List Byte) (s : State) : State × List Byte :=
  let n := (body.length - 1) / 7
  if (body.length - 1) % 7 ≠ 0 ∨ n < 1 ∨ 16 < n then answer statusBadLength s
  else
    match burstsAt c.cfg.run.width body n 1 with
    | none => answer statusBadValue s
    | some rs =>
      let k := min n (c.cfg.depth - c.queue.length)
      let q := c.queue ++ rs.take k
      ({ s.setChan ch (.burst { c with queue := q }) with putAt := some (s.now, ch) }, putReply k n q.length)

/-- QUEUE_PUT (R86): the common length check refuses a body outside 2..113. -/
def carryQueuePut : Carry := fun body s =>
  if body.length < 2 ∨ 113 < body.length then answer statusBadLength s
  else
    match chanAt body 0 with
    | none => answer statusBadValue s
    | some ch =>
      match s.chan ch with
      | .free => answer statusNotConfigured s
      | .sample _ | .edge _ => answer statusKind s
      | .level c => putLevels ch c body s
      | .burst c => putBursts ch c body s

/-- QUEUE_PUT: the Dispatcher takes the request (R86). -/
def execQueuePut (seq : Byte) (body : List Byte) (s : State) : Out :=
  .next (dispatch ⟨seq, 0x14, body⟩ carryQueuePut s)

end Sys2Proof.Machine
end

