-- ==== Sys2Proof/Machine/Inputs.lean ====
section
/-! DEFINITION. Input channels (chapter 6): appending records, SAMPLE, windows, debounces, CHAN_EDGE and QUEUE_TAKE. -/

namespace Sys2Proof.Machine

/-! ### Joining an input queue (section 6.1) -/

/-- A queue with a record appended under its full policy, and whether a record was lost (R109, R110). -/
def joinQueue {α : Type} (depth : Nat) (policy : FullPolicy) (q : List α) (r : α) : List α × Bool :=
  if q.length < depth then (q ++ [r], false)
  else
    match policy with
    | .keepOld => (q, true)
    | .keepNew => (q.tail ++ [r], true)

/-- The lost count after an append (R110). -/
def lostAfter (lost : Nat) (wasLost : Bool) : Nat := if wasLost then satSucc Config.counterMax lost else lost

/-- The notice of an append: LOST with the lost count, or DATA when the new fill is the high-water mark (R110, R111). -/
def appendNotice (ch : ChanIx) (mark fill lost : Nat) (wasLost : Bool) (cycle : CycleNo) : List Raised :=
  if wasLost then [channelNotice .lost ch lost cycle]
  else if fill = mark then [channelNotice .data ch fill cycle]
  else []

/-- A SAMPLE record joins a SAMPLE_IN channel's queue (R109). -/
def SampleChan.append (ch : ChanIx) (r : SampleRec) (c : SampleChan) : SampleChan × List Raised :=
  let j := joinQueue c.cfg.depth c.cfg.full c.queue r
  let lost := lostAfter c.lost j.2
  ({ c with queue := j.1, lost := lost }, appendNotice ch c.cfg.mark j.1.length lost j.2 r.cycle)

/-- An EDGE record joins an EDGE_IN channel's queue (R109). -/
def EdgeChan.append (ch : ChanIx) (r : EdgeRec) (c : EdgeChan) : EdgeChan × List Raised :=
  let j := joinQueue c.cfg.depth c.cfg.full c.queue r
  let lost := lostAfter c.lost j.2
  ({ c with queue := j.1, lost := lost }, appendNotice ch c.cfg.mark j.1.length lost j.2 r.cycle)

/-! ### Windows (section 6.3) -/

/-- An OPEN step: a CLOSED window opens and the settled levels are re-taken from the lines (R113, R114). That a CHAN_EDGE discarded a
line's debounce at this same instant is not forgotten by it: the model's choice (log 38). -/
def EdgeChan.openWindow (lines : BitVec 32) (c : EdgeChan) : EdgeChan :=
  match c.window with
  | .opened => c
  | .closed => { c with window := .opened, settled := c.cfg.run.read lines }

/-! ### Debounce (section 6.4) -/

/-- Confirmation of the debounce on line `i`: the settled level changes, and an EDGE record is appended if the edge select calls
for one (R119). -/
def EdgeChan.confirm (ch : ChanIx) (i : Fin 8) (d : Debounce) (c : EdgeChan) : EdgeChan × List Raised :=
  let c := { c with settled := setLevel c.settled i d.level, debounces := c.debounces.set i.val none i.isLt }
  if c.select.takes (levelDirection d.level) then
    c.append ch { cycle := d.cycle, offset := d.offset, line := i, direction := levelDirection d.level }
  else (c, [])

/-- The instant, cycle number and cycle time that a change found by a sample is stamped with (R117). -/
structure Stamp where
  instant : Nat
  cycle : CycleNo
  offset : Nat
  deriving DecidableEq, Repr

/-- What a sample of line `i` does while the window is OPEN (R117, R118): a change begins a debounce, and a return to the settled
level discards one. A line whose debounce a CHAN_EDGE of the same instant has discarded is settled at the level it shows (R123). -/
def EdgeChan.sampleLine (stamp : Stamp) (value : LineValue) (c : EdgeChan) (i : Fin 8) : EdgeChan :=
  if levelOf value i = levelOf c.settled i then { c with debounces := c.debounces.set i.val none i.isLt }
  else if (c.debounces.get i).isSome then c
  else if c.retaken.get i = some stamp.instant then { c with settled := setLevel c.settled i (levelOf value i) }
  else
    let d : Debounce := { began := stamp.instant, cycle := stamp.cycle, offset := stamp.offset, level := levelOf value i }
    { c with debounces := c.debounces.set i.val (some d) i.isLt }

/-- The debounce in progress on line `i` has lasted the debounce time at this instant, and the line still shows the new level
(R117, R119). -/
def EdgeChan.lineDue (now : Nat) (value : LineValue) (c : EdgeChan) (i : Fin 8) : Bool :=
  match c.debounces.get i with
  | some d => d.began + c.debounce == now && levelOf value i == d.level
  | none => false

/-- Confirmation of line `i` if it is due. -/
def EdgeChan.confirmLine (ch : ChanIx) (now : Nat) (value : LineValue) (c : EdgeChan) (i : Fin 8) : EdgeChan × List Raised :=
  match c.debounces.get i with
  | some d => if c.lineDue now value i then c.confirm ch i d else (c, [])
  | none => (c, [])

/-- The lines of the run, in ascending order. -/
def EdgeChan.lines (c : EdgeChan) : List (Fin 8) := allLines.filter fun i => decide (i.val < c.cfg.run.width)

/-- The stamp of a change found now (R117). -/
def State.stamp (s : State) : Stamp := { instant := s.now, cycle := s.engine.cycle, offset := s.cycleTime.getD 0 }

/-- A sample of the lines of one channel (R117): only an EDGE_IN channel with its window OPEN acts on it. -/
def Channel.sampled (stamp : Stamp) (levels : BitVec 32) : Channel → Channel
  | .edge c =>
    .edge (if c.window = .opened then c.lines.foldl (EdgeChan.sampleLine stamp (c.cfg.run.read levels)) c else c)
  | c => c

/-- EDGE_LINE_CHANGE: a sample finds the field lines at `levels` (R117, R118). During a hardware reset no line is sampled. -/
def execEdgeLineChange (levels : BitVec 32) (s : State) : Out :=
  let s := { s with pins := { s.pins with lines := levels } }
  whenPowered s { s with chans := s.chans.mapRecords (Channel.sampled s.stamp levels) }

/-! ### What is still to come at an instant (R115, R121; log 15)

The commands that wait are of the present instant, so a change of debounce time 0 can meet them. -/

/-- The character that a command puts on RXD: a byte, or `none` for a faulty one. -/
def characterOf : Instr → Option (Option Byte)
  | .byteTaken b | .lengthByteAbove240 b | .requestFrameReceived b | .ack b | .frameDiscarded b => some (some b)
  | .framingError => some none
  | _ => none

/-- The frames with a good CRC that the receiver completes from a row of characters (R159 to R162). -/
def Receiver.framesFrom (now : Nat) : List (Option Byte) → Receiver → List Frame
  | [], _ => []
  | none :: cs, _ => Receiver.framesFrom now cs .hunt
  | some b :: cs, r =>
    match r.take now b with
    | (r, .complete f received) =>
      if (crc f.covered).toNat = received then f :: Receiver.framesFrom now cs r else Receiver.framesFrom now cs r
    | (r, _) => Receiver.framesFrom now cs r

/-- The frames that the characters among the waiting commands complete. -/
def framesToCome (s : State) : List Frame :=
  let cs := s.pending.filterMap characterOf
  Receiver.framesFrom s.now (if s.link.front = .leavingOut then cs.tail else cs) s.link.rx

/-- A request for a stop at once (R41). -/
def Frame.stopsNow (f : Frame) : Bool := f.kind == 0x06 && f.body == [1]

/-- A rising SYNC edge or a STOP NOW waits among the commands. -/
def cycleEndWaits (s : State) : Bool :=
  (s.pending.any fun i => match i with
    | .syncRisingEdge => s.engine.mode == .sync
    | .stop _ body => body == [1]
    | _ => false)
  || (framesToCome s).any Frame.stopsNow

/-- A STOP NOW is held until the reply in transmission has been sent, which is at this instant (R171). -/
def heldStopDue (s : State) : Bool := frameDue .reply s && s.link.holding.any Frame.stopsNow

/-- No boundary, no stop and no step is still to come at this instant. -/
def instantOver (s : State) : Bool := !boundaryDue s && !stepDue s && !heldStopDue s && !cycleEndWaits s

/-- The samples of the field lines among the waiting commands. -/
def samplesToCome (s : State) : List (BitVec 32) :=
  s.pending.filterMap fun i => match i with
    | .edgeLineChange levels => some levels
    | _ => none

/-- A sample of the present instant that still waits finds back a line whose debounce is due (R117, R118). -/
def EdgeChan.undoneBy (now : Nat) (lines levels : BitVec 32) (c : EdgeChan) : Bool :=
  c.lines.any fun i => c.lineDue now (c.cfg.run.read lines) i && !c.lineDue now (c.cfg.run.read levels) i

/-- A debounce of the channel has reached its confirmation (R119). The sample at that instant must find the new level (R117): while one
waits that finds a line back, nothing is confirmed, and that sample discards the debounce (R118; log 13). With a debounce time of 0 that is the instant of the change itself,
and the confirmation comes after the boundaries, stops and steps of that instant: a boundary gives the change its stamp (R121), and a
CLOSE or a stop leaves it without a record (R115; log 15). -/
def debounceDue (ch : ChanIx) (s : State) : Bool :=
  s.hwReset.isNone &&
    match s.chan ch with
    | .edge c => c.window == .opened && (c.debounce != 0 || instantOver s) &&
        !(samplesToCome s).any (fun levels => c.undoneBy s.now s.pins.lines levels) &&
        c.lines.any fun i => c.lineDue s.now (c.cfg.run.read s.pins.lines) i
    | _ => false

/-- Every debounce of the channel that is due at an instant is confirmed, in ascending order of lines, with the notices (R120). Nothing else
of the instant comes between two of them: the model's choice (log 37). -/
def EdgeChan.confirmDue (ch : ChanIx) (now : Nat) (value : LineValue) (c : EdgeChan) : EdgeChan × List Raised :=
  c.lines.foldl
    (fun p i =>
      let q := p.1.confirmLine ch now value i
      (q.1, p.2 ++ q.2))
    (c, [])

/-- The debounces of a channel that are due are confirmed and the notices raised (R119, R120). Notices of steps fired at this instant
that are still held are taken with them, and its notices before those of a later command of the instant: the model's choice (logs 34 and
42). -/
def confirmChannel (ch : ChanIx) (s : State) : State :=
  match s.chan ch with
  | .edge c =>
    let p := c.confirmDue ch s.now (c.cfg.run.read s.pins.lines)
    raiseAll p.2 (s.setChan ch (.edge p.1))
  | _ => s

/-- DEBOUNCE_CONFIRMED on a channel (R119, R120). -/
def execDebounceConfirmed (ch : ChanIx) (s : State) : Out :=
  .next (if debounceDue ch s then arbitrate (confirmChannel ch s) else s)

/-! ### Requests -/

/-- CHAN_EDGE on an EDGE_IN channel: new settings, every debounce discarded, settled levels re-taken (R122); it is remembered which
lines had a debounce, for a sample of the same instant (R123, log 32). -/
def EdgeChan.reset (now : Nat) (select : EdgeSelect) (debounce : Nat) (lines : BitVec 32) (c : EdgeChan) : EdgeChan :=
  { c with
    select := select
    debounce := debounce
    debounces := noDebounces
    settled := c.cfg.run.read lines
    retaken := c.debounces.map fun d => d.map fun _ => now }

/-- CHAN_EDGE (R122). The reply gives the settled levels as they are re-taken here, also where a line's return is sampled after it at the
same instant: the model's choice (log 35). -/
def carryChanEdge : Carry := fun body s =>
  withLength 3 body s
    (match chanAt body 0, edgeSelectOf (natAt body 1) with
    | some ch, some select =>
      match s.chan ch with
      | .free => answer statusNotConfigured s
      | .edge c =>
        let c := c.reset s.now select (natAt body 2) s.pins.lines
        (s.setChan ch (.edge c), [statusOk, ixByte ch, c.settled])
      | _ => answer statusKind s
    | _, _ => answer statusBadValue s)

/-- CHAN_EDGE: the Dispatcher takes the request (R122). -/
def execChanEdge (seq : Byte) (body : List Byte) (s : State) : Out :=
  .next (dispatch ⟨seq, 0x13, body⟩ carryChanEdge s)

/-- The reply of a QUEUE_TAKE: `m`, the fill that remains, and the `m` records, oldest first (R124). -/
def takeReply {α : Type} (bytes : α → List Byte) (taken rest : List α) : List Byte :=
  [statusOk, byteOf taken.length, byteOf rest.length] ++ taken.flatMap bytes

/-- QUEUE_TAKE (R124). -/
def carryQueueTake : Carry := fun body s =>
  withLength 2 body s
    (match chanAt body 0 with
    | none => answer statusBadValue s
    | some ch =>
      let n := natAt body 1
      if n < 1 ∨ 16 < n then answer statusBadValue s
      else
        match s.chan ch with
        | .free => answer statusNotConfigured s
        | .level _ | .burst _ => answer statusKind s
        | .sample c =>
          (s.setChan ch (.sample { c with queue := c.queue.drop n }),
            takeReply SampleRec.bytes (c.queue.take n) (c.queue.drop n))
        | .edge c =>
          (s.setChan ch (.edge { c with queue := c.queue.drop n }),
            takeReply EdgeRec.bytes (c.queue.take n) (c.queue.drop n)))

/-- QUEUE_TAKE: the Dispatcher takes the request (R124). -/
def execQueueTake (seq : Byte) (body : List Byte) (s : State) : Out :=
  .next (dispatch ⟨seq, 0x15, body⟩ carryQueueTake s)

end Sys2Proof.Machine
end

