-- ==== Sys2Proof/Machine/Channels.lean ====
section
/-! DEFINITION. The Channel Table (chapter 4): CHAN_SET, CHAN_RELEASE, CHAN_READ and QUEUE_FLUSH. -/

namespace Sys2Proof.Machine

/-! ### CHAN_SET (section 4.5) -/

/-- A configuration that a CHAN_SET asks for, with the fields its kind holds (R63, R70). -/
inductive Setup where
  | level (cfg : OutConfig)
  | burst (cfg : OutConfig)
  | sample (cfg : InConfig)
  | edge (cfg : InConfig) (select : EdgeSelect) (debounce : Nat)
  deriving DecidableEq, Repr

def Setup.run : Setup → Run
  | .level c => c.run
  | .burst c => c.run
  | .sample c => c.run
  | .edge c _ _ => c.run

def Setup.depth : Setup → Nat
  | .level c => c.depth
  | .burst c => c.depth
  | .sample c => c.depth
  | .edge c _ _ => c.depth

/-- The run of a CHAN_SET body: port, first, width at bytes 2 to 4 (R70, section 12.4). -/
def runOf (body : List Byte) : Option Run :=
  let width := natAt body 4
  if h : natAt body 2 < 4 ∧ natAt body 3 < 8 then
    if 1 ≤ width ∧ width ≤ 8 ∧ natAt body 3 + width ≤ 8 then
      some { port := ⟨natAt body 2, h.1⟩, first := ⟨natAt body 3, h.2⟩, width := width }
    else none
  else none

/-- The output fields of a CHAN_SET body: mark, idle, safe, starve policy at bytes 6 to 9 (R70). -/
def outConfigOf (run : Run) (depth : Nat) (body : List Byte) : Option OutConfig :=
  match starveOf (natAt body 9) with
  | none => none
  | some starve =>
    if natAt body 6 ≤ depth - 1 ∧ natAt body 7 ≤ 2 ^ run.width - 1 ∧ natAt body 8 ≤ 2 ^ run.width - 1 then
      some { run := run, depth := depth, mark := natAt body 6, idle := byteAt body 7, safe := byteAt body 8, starve := starve }
    else none

/-- The input fields of a CHAN_SET body: mark at byte 6 and full policy at byte 10 (R70). -/
def inConfigOf (run : Run) (depth : Nat) (body : List Byte) : Option InConfig :=
  match fullOf (natAt body 10) with
  | none => none
  | some full =>
    if 1 ≤ natAt body 6 ∧ natAt body 6 ≤ depth then
      some { run := run, depth := depth, mark := natAt body 6, full := full }
    else none

/-- The range checks of CHAN_SET: the configuration asked for, or out of range (R70). Fields the kind does not hold are ignored. -/
def setupOf (body : List Byte) : Option Setup :=
  let depth := natAt body 5
  match runOf body with
  | none => none
  | some run =>
    if depth < Config.depthMin ∨ Config.depthMax < depth then none
    else
      match natAt body 1 with
      | 1 => (outConfigOf run depth body).map .level
      | 2 => (outConfigOf run depth body).map .burst
      | 3 => (inConfigOf run depth body).map .sample
      | 4 =>
        match inConfigOf run depth body, edgeSelectOf (natAt body 11) with
        | some cfg, some select => some (.edge cfg select (natAt body 12))
        | _, _ => none
      | _ => none

/-- The value an output channel takes at configuration: idle, or safe while SAFE is set (R73). -/
def OutConfig.initial (c : OutConfig) (safe : Bool) : LineValue := if safe then c.safe else c.idle

/-- The channel that a configuration installs, with the starting values of R64 (R73). -/
def Setup.install (safe : Bool) (lines : BitVec 32) : Setup → Channel
  | .level c => .level { cfg := c, state := .waiting, value := c.initial safe, queue := [] }
  | .burst c => .burst { cfg := c, state := .waiting, value := c.initial safe, queue := [], burst := none, skips := 0 }
  | .sample c => .sample { cfg := c, queue := [], lost := 0 }
  | .edge c select debounce =>
    .edge { cfg := c, select := select, debounce := debounce, queue := [], lost := 0, window := .closed
            settled := c.run.read lines, debounces := noDebounces, retaken := Vector.replicate 8 none }

/-- The line map with the lines of a channel released and those of a run, if any, claimed for it (R65, R72, R73). -/
def claimLines (ch : ChanIx) (run : Option Run) (m : Vector (Option ChanIx) 32) : Vector (Option ChanIx) 32 :=
  Vector.ofFn fun n =>
    if (run.map fun r => r.covers n.val).getD false then some ch
    else if m.get n = some ch then none
    else m.get n

/-- The channel table with one channel's old configuration ended and a new record installed: lines and places move with it
(R65, R67, R72, R73). -/
def ChannelTable.replace (ch : ChanIx) (c : Channel) (t : ChannelTable) : ChannelTable :=
  { records := t.records.set ch.val c ch.isLt
    lineMap := claimLines ch c.run? t.lineMap
    freeCount := t.freeCount + (t.records.get ch).places - c.places }

/-- The lowest line of a run that another channel owns, with that owner (R70, R71). -/
def takenLine (ch : ChanIx) (r : Run) (m : Vector (Option ChanIx) 32) : Option (Fin 32 × ChanIx) :=
  (List.finRange 32).findSome? fun n =>
    match m.get n with
    | some o => if r.covers n.val && o != ch then some (n, o) else none
    | none => none

/-- CHAN_SET (R70 to R73). -/
def carryChanSet : Carry := fun body s =>
  withLength 13 body s
    (match chanAt body 0, setupOf body with
    | some ch, some setup =>
      if s.plans.referenced ch then (s, [statusInUse, ixByte ch])
      else
        match takenLine ch setup.run s.chans.lineMap with
        | some (n, o) => (s, [statusLineTaken, byteOf (n.val / 8), byteOf (n.val % 8), ixByte o])
        | none =>
          let available := s.chans.freeCount + (s.chan ch).places
          if available < setup.depth then (s, statusNoSpace :: le16 available)
          else
            let t := s.chans.replace ch (setup.install s.safe.safe s.pins.lines)
            ({ s with chans := t }, [statusOk, ixByte ch] ++ le16 t.freeCount)
    | _, _ => answer statusBadValue s)

/-- CHAN_SET: the Dispatcher takes the request (R70). -/
def execChanSet (seq : Byte) (body : List Byte) (s : State) : Out :=
  .next (dispatch ⟨seq, 0x10, body⟩ carryChanSet s)

/-! ### CHAN_RELEASE (section 4.6) -/

/-- CHAN_RELEASE (R76). -/
def carryChanRelease : Carry := fun body s =>
  withLength 1 body s
    (match chanAt body 0 with
    | none => answer statusBadValue s
    | some ch =>
      if s.chan ch = .free then answer statusNotConfigured s
      else if s.plans.referenced ch then answer statusInUse s
      else
        let t := s.chans.replace ch .free
        ({ s with chans := t }, statusOk :: le16 t.freeCount))

/-- CHAN_RELEASE: the Dispatcher takes the request (R76). -/
def execChanRelease (seq : Byte) (body : List Byte) (s : State) : Out :=
  .next (dispatch ⟨seq, 0x11, body⟩ carryChanRelease s)

/-! ### CHAN_READ (section 4.7) -/

/-- Bytes 4 to 14 of a CHAN_READ reply for an output channel: the fields an output does not hold are 0 (section 12.5). -/
def OutConfig.bytes (c : OutConfig) : List Byte :=
  [ixByte c.run.port, ixByte c.run.first, byteOf c.run.width, byteOf c.depth, byteOf c.mark, c.idle, c.safe, c.starve.code, 0, 0, 0]

/-- Bytes 4 to 14 of a CHAN_READ reply for an input channel. -/
def InConfig.bytes (c : InConfig) (select debounce : Byte) : List Byte :=
  [ixByte c.run.port, ixByte c.run.first, byteOf c.run.width, byteOf c.depth, byteOf c.mark, 0, 0, 0, c.full.code, select, debounce]

/-- Bytes 19 to 23 of a CHAN_READ reply: the burst in flight, all 0 when there is none (section 12.5). -/
def burstBytes : Option Burst → List Byte
  | none => [0, 0, 0, 0, 0]
  | some b => [1, b.played.active] ++ le16 b.remaining ++ [b.phase.code]

/-- The lines with a debounce in progress, as a line value (R78). One of time 0 is over at the instant it begins and is never shown
(log 15). -/
def EdgeChan.debouncing (c : EdgeChan) : LineValue :=
  if c.debounce = 0 then 0 else allLines.foldl (fun v i => if (c.debounces.get i).isSome then setLevel v i .high else v) 0

/-- Bytes 4 to 29 of a CHAN_READ reply (section 12.5); `lines` are the levels at the field lines. -/
def Channel.readBytes (lines : BitVec 32) : Channel → List Byte
  | .free => List.replicate 26 0
  | .level c =>
    c.cfg.bytes ++ [byteOf c.queue.length, c.state.code] ++ le16 0 ++ burstBytes none ++ le16 0 ++ [0, 0, 0, c.value]
  | .burst c =>
    c.cfg.bytes ++ [byteOf c.queue.length, c.state.code] ++ le16 c.skips ++ burstBytes c.burst ++ le16 0 ++ [0, 0, 0, c.value]
  | .sample c =>
    c.cfg.bytes 0 0 ++ [byteOf c.queue.length, 0] ++ le16 0 ++ burstBytes none ++ le16 c.lost
      ++ [0, 0, 0, c.cfg.run.read lines]
  | .edge c =>
    c.cfg.bytes c.select.code (byteOf c.debounce) ++ [byteOf c.queue.length, 0] ++ le16 0 ++ burstBytes none ++ le16 c.lost
      ++ [c.window.code, c.settled, c.debouncing, c.cfg.run.read lines]

/-- The clear flag of CHAN_READ: the skip or lost count is set to 0 (R79). -/
def Channel.clearCount : Channel → Channel
  | .burst c => .burst { c with skips := 0 }
  | .sample c => .sample { c with lost := 0 }
  | .edge c => .edge { c with lost := 0 }
  | c => c

/-- CHAN_READ (R78, R79). A free channel is sent with kind NONE, referenced no and every other field 0. -/
def carryChanRead : Carry := fun body s =>
  withLength 2 body s
    (match chanAt body 0, flagAt body 1 with
    | some ch, some clear =>
      let c := s.chan ch
      let referenced := c != .free && s.plans.referenced ch
      (if clear then s.setChan ch c.clearCount else s,
        [statusOk, ixByte ch, c.kind.code, flagByte referenced] ++ c.readBytes s.pins.lines)
    | _, _ => answer statusBadValue s)

/-- CHAN_READ: the Dispatcher takes the request (R78). -/
def execChanRead (seq : Byte) (body : List Byte) (s : State) : Out :=
  .next (dispatch ⟨seq, 0x12, body⟩ carryChanRead s)

/-! ### QUEUE_FLUSH (section 4.8) -/

/-- A channel with its queue emptied and nothing else changed (R80). -/
def Channel.flushed : Channel → Channel
  | .free => .free
  | .level c => .level { c with queue := [] }
  | .burst c => .burst { c with queue := [] }
  | .sample c => .sample { c with queue := [] }
  | .edge c => .edge { c with queue := [] }

/-- QUEUE_FLUSH (R80). -/
def carryQueueFlush : Carry := fun body s =>
  withLength 1 body s
    (match chanAt body 0 with
    | none => answer statusBadValue s
    | some ch =>
      if s.chan ch = .free then answer statusNotConfigured s
      else (s.setChan ch (s.chan ch).flushed, [statusOk, byteOf (s.chan ch).fill]))

/-- QUEUE_FLUSH: the Dispatcher takes the request (R80). -/
def execQueueFlush (seq : Byte) (body : List Byte) (s : State) : Out :=
  .next (dispatch ⟨seq, 0x16, body⟩ carryQueueFlush s)

end Sys2Proof.Machine
end

