-- ==== Sys2Proof/Machine/Plans.lean ====
section
/-! DEFINITION. The plan requests (chapter 1): editing the standby plan, reading a plan, committing and cancelling. -/

namespace Sys2Proof.Machine

/-! ### Editing (section 1.2) -/

/-- An edit of the standby plan: refused with SWAP_PENDING while a swap is pending; every edit reply names the standby table (R5). -/
def editStandby (edit : PlanTable → PlanTable) (s : State) : State × List Byte :=
  let table := s.plans.active.other.code
  if s.plans.swapPending then (s, [statusSwapPending, table])
  else ({ s with plans := s.plans.setStandby (edit s.plans.standby) }, [statusOk, table])

/-- The slot and the step of a STEP_PUT body, or out of range (R6). -/
def parseStep (body : List Byte) : Option (SlotIx × Step) :=
  match slotAt body 0, actionOf body 5, slotOrNoneAt body 8 with
  | some p, some action, some next =>
    if read32 body 1 ≤ Config.offsetMax then
      some (p, { offset := read32 body 1, action := action, tag := byteAt body 7, next := next })
    else none
  | _, _, _ => none

/-- STEP_PUT (R6). -/
def carryStepPut : Carry := fun body s =>
  withLength 9 body s
    (match parseStep body with
    | none => answer statusBadValue s
    | some (p, st) => editStandby (PlanTable.setSlot p (some st)) s)

/-- STEP_PUT: the Dispatcher takes the request (R6). -/
def execStepPut (seq : Byte) (body : List Byte) (s : State) : Out :=
  .next (dispatch ⟨seq, 0x08, body⟩ carryStepPut s)

/-- STEP_DROP (R7). -/
def carryStepDrop : Carry := fun body s =>
  withLength 1 body s
    (match slotAt body 0 with
    | none => answer statusBadValue s
    | some p => editStandby (PlanTable.setSlot p none) s)

/-- STEP_DROP: the Dispatcher takes the request (R7). -/
def execStepDrop (seq : Byte) (body : List Byte) (s : State) : Out :=
  .next (dispatch ⟨seq, 0x09, body⟩ carryStepDrop s)

/-- PLAN_HEAD (R8). -/
def carryPlanHead : Carry := fun body s =>
  withLength 1 body s
    (match slotOrNoneAt body 0 with
    | none => answer statusBadValue s
    | some h => editStandby (fun t => { t with head := h }) s)

/-- PLAN_HEAD: the Dispatcher takes the request (R8). -/
def execPlanHead (seq : Byte) (body : List Byte) (s : State) : Out :=
  .next (dispatch ⟨seq, 0x0A, body⟩ carryPlanHead s)

/-- PLAN_CLEAR (R9). -/
def carryPlanClear : Carry := fun body s =>
  withLength 0 body s (editStandby (fun _ => PlanTable.empty) s)

/-- PLAN_CLEAR: the Dispatcher takes the request (R9). -/
def execPlanClear (seq : Byte) (body : List Byte) (s : State) : Out :=
  .next (dispatch ⟨seq, 0x0B, body⟩ carryPlanClear s)

/-- PLAN_COPY (R10). -/
def carryPlanCopy : Carry := fun body s =>
  withLength 0 body s (editStandby (fun _ => s.plans.activeTable) s)

/-- PLAN_COPY: the Dispatcher takes the request (R10). -/
def execPlanCopy (seq : Byte) (body : List Byte) (s : State) : Out :=
  .next (dispatch ⟨seq, 0x0C, body⟩ carryPlanCopy s)

/-! ### Reading (R11) -/

/-- The table a PLAN_READ selector names: 0 A, 1 B, 2 ACTIVE, 3 STANDBY (R11). -/
def selectTable (p : PlanStore) (selector : Nat) : Option TableId :=
  match selector with
  | 0 => some .a
  | 1 => some .b
  | 2 => some p.active
  | 3 => some p.active.other
  | _ => none

/-- The bytes of a slot in a PLAN_READ reply: filled flag and the five step fields, all 0 for an empty slot (R11, section 12.5). -/
def slotBytes : Option Step → List Byte
  | none => 0 :: le32 0 ++ [0, 0, 0, 0]
  | some st => 1 :: le32 st.offset ++ [st.action.code, st.action.channelByte, st.tag, slotByte st.next]

/-- PLAN_READ (R11). -/
def carryPlanRead : Carry := fun body s =>
  withLength 2 body s
    (match selectTable s.plans (natAt body 0), slotAt body 1 with
    | some id, some p =>
      let t := s.plans.table id
      (s, [statusOk, id.code, flagByte (id == s.plans.active), flagByte s.plans.swapPending, slotByte t.head, ixByte p]
        ++ slotBytes (t.slots.get p))
    | _, _ => answer statusBadValue s)

/-- PLAN_READ: the Dispatcher takes the request (R11). -/
def execPlanRead (seq : Byte) (body : List Byte) (s : State) : Out :=
  .next (dispatch ⟨seq, 0x0D, body⟩ carryPlanRead s)

/-! ### Committing (section 1.3) -/

/-- The five validation checks (R14), with the codes of section 12.3. -/
inductive PlanCheck where
  | brokenChain
  | loop
  | offsetRange
  | order
  | channelKind
  deriving DecidableEq, Repr

def PlanCheck.code : PlanCheck → Byte
  | .brokenChain => 1
  | .loop => 2
  | .offsetRange => 3
  | .order => 4
  | .channelKind => 5

/-- The fifth check: MARK passes, any other action needs a channel of a kind it accepts (R14). -/
def fitsKind (records : Vector Channel 16) (a : Action) : Bool :=
  match a.channel? with
  | none => true
  | some ch => a.accepts (records.get ch).kind

/-- The five checks at one slot in their numbered order; the step when all pass (R14). -/
def checkSlot (t : PlanTable) (period : Nat) (records : Vector Channel 16) (visited : List SlotIx)
    (previous : Option Nat) (p : SlotIx) : Except PlanCheck Step :=
  match t.slots.get p with
  | none => .error .brokenChain
  | some st =>
    if p ∈ visited then .error .loop
    else if period ≤ st.offset then .error .offsetRange
    else if st.offset < previous.getD 0 then .error .order
    else if fitsKind records st.action then .ok st
    else .error .channelKind

/-- The validation walk (R13): the slots still to be reached are bounded by `fuel`, and a chain that outlasts it has come round
to a slot a second time. -/
def validateFrom (t : PlanTable) (period : Nat) (records : Vector Channel 16) :
    Nat → List SlotIx → Option Nat → Option SlotIx → Except (PlanCheck × SlotIx) Nat
  | _, visited, _, none => .ok visited.length
  | 0, _, _, some p => .error (.loop, p)
  | fuel + 1, visited, previous, some p =>
    match checkSlot t period records visited previous p with
    | .error c => .error (c, p)
    | .ok st => validateFrom t period records fuel (p :: visited) (some st.offset) st.next

/-- Validation of a plan: the chain length, or the first check that fails and its slot (R13). A walk reaches at most 49 slots. -/
def validate (t : PlanTable) (period : Nat) (records : Vector Channel 16) : Except (PlanCheck × SlotIx) Nat :=
  validateFrom t period records 49 [] none t.head

/-- PLAN_COMMIT (R12, R15 to R17). -/
def carryPlanCommit : Carry := fun body s =>
  withLength 0 body s
    (if s.plans.swapPending then answer statusSwapPending s
    else
      match validate s.plans.standby s.engine.period s.chans.records with
      | .error (c, p) => (s, [statusPlanInvalid, c.code, ixByte p])
      | .ok n =>
        let table := s.plans.active.other.code
        if s.engine.state = .stopped then
          let s := { s with plans := s.plans.swapped }
          (raiseAll [swapNotice s.plans s.engine.cycle] s, [statusOk, 0, table, byteOf n])
        else ({ s with plans := { s.plans with swapPending := true } }, [statusOk, 1, table, byteOf n]))

/-- PLAN_COMMIT: the Dispatcher takes the request (R12). -/
def execPlanCommit (seq : Byte) (body : List Byte) (s : State) : Out :=
  .next (dispatch ⟨seq, 0x0E, body⟩ carryPlanCommit s)

/-- COMMIT_CANCEL (R20). -/
def carryCommitCancel : Carry := fun body s =>
  withLength 0 body s
    (if s.plans.swapPending then ({ s with plans := { s.plans with swapPending := false } }, [statusOk])
    else answer statusNotPending s)

/-- COMMIT_CANCEL: the Dispatcher takes the request (R20). -/
def execCommitCancel (seq : Byte) (body : List Byte) (s : State) : Out :=
  .next (dispatch ⟨seq, 0x0F, body⟩ carryCommitCancel s)

end Sys2Proof.Machine
end

