-- ==== Sys2Proof/Machine/SafeState.lean ====
section
/-! DEFINITION. The Safe-State Controller (chapter 7): SAFE, RESUME, SILENCE_SET, the NSTOP samples and the silence timer. -/

namespace Sys2Proof.Machine

/-- SAFE (R132): the reply carries SAFE and the cause set as the request left them. -/
def carrySafe : Carry := fun body s =>
  withLength 0 body s
    (let s := applyCause .request s
     (s, [statusOk, flagByte s.safe.safe, s.safe.causes.byte]))

/-- SAFE: the Dispatcher takes the request (R132). -/
def execSafe (seq : Byte) (body : List Byte) (s : State) : Out :=
  .next (dispatch ⟨seq, 0x18, body⟩ carrySafe s)

/-- RESUME (R136): refused while NSTOP is low; otherwise SAFE and every cause are cleared and no line changes (R100). -/
def carryResume : Carry := fun body s =>
  withLength 0 body s
    (if s.safe.nstop = .low then (s, [statusStopActive, flagByte s.safe.safe, s.safe.causes.byte])
    else
      ({ s with safe := { s.safe with safe := false, causes := CauseSet.none, safeOut := .high } },
        [statusOk, 0, s.safe.causes.byte]))

/-- RESUME: the Dispatcher takes the request (R136). -/
def execResume (seq : Byte) (body : List Byte) (s : State) : Out :=
  .next (dispatch ⟨seq, 0x19, body⟩ carryResume s)

/-- A silence period that SILENCE_SET accepts: 0 or 10..60,000 ms (R135). -/
def silencePeriodOk (ms : Nat) : Bool := ms == 0 || (decide (10 ≤ ms) && decide (ms ≤ 60000))

/-- SILENCE_SET (R135). -/
def carrySilenceSet : Carry := fun body s =>
  withLength 2 body s
    (let ms := read16 body 0
     if silencePeriodOk ms then
       (restartSilence { s with safe := { s.safe with period := ms } }, statusOk :: le16 ms)
     else answer statusBadValue s)

/-- SILENCE_SET: the Dispatcher takes the request (R135). -/
def execSilenceSet (seq : Byte) (body : List Byte) (s : State) : Out :=
  .next (dispatch ⟨seq, 0x1A, body⟩ carrySilenceSet s)

/-- NSTOP_LOW: a sample finds NSTOP low and applies STOP_LINE unless the cause set holds it (R133). -/
def execNstopLow (s : State) : Out :=
  whenPowered s
    (let s := { s with safe := { s.safe with nstop := .low } }
     if s.safe.causes.stopLine then s else arbitrate (applyCause .stopLine s))

/-- NSTOP_HIGH: a sample finds NSTOP high and nothing but the level changes (R133). -/
def execNstopHigh (s : State) : Out :=
  whenPowered s { s with safe := { s.safe with nstop := .high } }

/-- The silence timer is at its expiry instant (R134). -/
def silenceDue (s : State) : Bool := s.hwReset.isNone && s.safe.timer == some s.now

/-- SILENCE_TIMER_EXPIRY: the SILENCE cause is applied and the timer stops (R134). -/
def execSilenceTimerExpiry (s : State) : Out :=
  .next
    (if silenceDue s then arbitrate (applyCause .silence { s with safe := { s.safe with timer := none } })
    else s)

end Sys2Proof.Machine
end

