-- ==== Sys2Proof/Machine/Requests.lean ====
section
/-! DEFINITION. The Dispatcher's own requests (chapter 10): IDENTIFY, STATUS, RESET and the unknown kinds, and the table of all
requests by their code (section 10.6). -/

namespace Sys2Proof.Machine

/-- The IDENTIFY reply: family 0x0F32, revision 1, 32 lines, 16 channels, 48 slots, 512 places, 16 entries (R177). -/
def identity : List Byte := le16 0x0F32 ++ [1, 32, 16, 48] ++ le16 512 ++ [16]

/-- IDENTIFY (R177). -/
def carryIdentify : Carry := fun body s => withLength 0 body s (s, statusOk :: identity)

/-- IDENTIFY: the Dispatcher takes the request (R177). -/
def execIdentify (seq : Byte) (body : List Byte) (s : State) : Out :=
  .next (dispatch ⟨seq, 0x01, body⟩ carryIdentify s)

/-- The values of a STATUS reply at this instant, in the order of section 12.5 (R178). -/
def statusBytes (s : State) : List Byte :=
  [s.engine.state.code, s.engine.mode.code, s.engine.flagsByte] ++ le32 s.engine.period ++ le32 s.engine.cycle.toNat
    ++ [s.plans.active.code, flagByte s.plans.swapPending, flagByte s.safe.safe, s.safe.causes.byte,
        levelCode s.safe.nstop, byteOf s.notices.queue.length]
    ++ le16 s.chans.freeCount ++ le16 s.safe.period ++ le16 s.link.errors

/-- STATUS (R178): with the clear flag the link error count is set to 0 once the reply has been formed. -/
def carryStatus : Carry := fun body s =>
  withLength 1 body s
    (match flagAt body 0 with
    | none => answer statusBadValue s
    | some clear =>
      (if clear then { s with link := { s.link with errors := 0 }, clearedAt := some s.now } else s,
        statusOk :: statusBytes s))

/-- STATUS: the Dispatcher takes the request (R178). -/
def execStatus (seq : Byte) (body : List Byte) (s : State) : Out :=
  .next (dispatch ⟨seq, 0x02, body⟩ carryStatus s)

/-- RESET (R179): it sets the soft-reset-pending flag and nothing else. -/
def carryReset : Carry := fun body s =>
  withLength 0 body s ({ s with disp := { s.disp with softReset := true } }, [statusOk])

/-- RESET: the Dispatcher takes the request (R179). -/
def execReset (seq : Byte) (body : List Byte) (s : State) : Out :=
  .next (dispatch ⟨seq, 0x03, body⟩ carryReset s)

/-- A request of unknown kind (R174). -/
def carryUnknown : Carry := fun _ s => answer statusUnknownKind s

/-- UNKNOWN_KIND: the Dispatcher takes a request whose kind names no request (R174). A kind that names one, or that no request
frame carries, is not this command. -/
def execUnknownKind (seq kind : Byte) (body : List Byte) (s : State) : Out :=
  .next (if unknownKindCode kind then dispatch ⟨seq, kind, body⟩ carryUnknown s else s)

/-- The requests by their code (section 10.6). -/
def requestTable : List (Byte × Carry) :=
  [(0x01, carryIdentify), (0x02, carryStatus), (0x03, carryReset), (0x04, carryCycleSet), (0x05, carryStart),
   (0x06, carryStop), (0x08, carryStepPut), (0x09, carryStepDrop), (0x0A, carryPlanHead), (0x0B, carryPlanClear),
   (0x0C, carryPlanCopy), (0x0D, carryPlanRead), (0x0E, carryPlanCommit), (0x0F, carryCommitCancel),
   (0x10, carryChanSet), (0x11, carryChanRelease), (0x12, carryChanRead), (0x13, carryChanEdge),
   (0x14, carryQueuePut), (0x15, carryQueueTake), (0x16, carryQueueFlush), (0x18, carrySafe), (0x19, carryResume),
   (0x1A, carrySilenceSet)]

/-- How a request of any kind is carried out (R174). -/
def carryOf (kind : Byte) : Carry := (requestTable.lookup kind).getD carryUnknown

/-- The Dispatcher executes the request in the holding buffer if the reply slot is empty (R171); the arbiter has not yet acted. -/
def serveHeld (s : State) : State :=
  match s.link.holding, s.disp.slot with
  | some f, .empty => serve f (carryOf f.kind) s
  | _, _ => s

end Sys2Proof.Machine
end

