-- ==== Sys2Proof/Machine/Link.lean ====
section
/-! DEFINITION. The Host Link (chapter 9): the receiver and its six kinds of character, the gap limit, and the end of a reply. -/

namespace Sys2Proof.Machine

/-! ### The receiver (section 9.3) -/

/-- The receiver in another state. -/
def setRx (r : Receiver) (s : State) : State := { s with link := { s.link with rx := r } }

/-- The frame in progress is abandoned: HUNT, and one link error (R159 to R161). -/
def abandon (s : State) : State := linkError (setRx .hunt s)

/-- A valid request frame is offered to the holding buffer; when the reply slot is empty the Dispatcher takes it at this instant
(R164, R171). -/
def offerRequest (f : Frame) (s : State) : State :=
  if s.link.holding.isSome then linkError s
  else
    let s := { s with link := { s.link with holding := some f } }
    match s.disp.slot with
    | .empty => arbitrateAfter (noticeReady s) (serveHeld s)
    | _ => s

/-- A complete frame is judged (R162): CRC first, then the kind; a valid frame restarts the silence timer and goes on by its
kind. -/
def judgeFrame (f : Frame) (received : Nat) (s : State) : State :=
  let s := setRx .hunt s
  if (crc f.covered).toNat ≠ received then linkError s
  else if 0x80 ≤ f.kind.toNat then linkError s
  else
    let s := restartSilence s
    if f.kind = 0x40 then arbitrate (takeAck f.body s) else offerRequest f s

/-- The receiver takes a character without framing error (R159, R160, R162). -/
def receiveByte (b : Byte) (s : State) : State :=
  let p := s.link.rx.take s.now b
  let s := setRx p.1 s
  match p.2 with
  | .nothing => s
  | .abandoned => linkError s
  | .complete f received => judgeFrame f received s

/-- A character on RXD (R157, R168). The one that was under way as a hardware reset ended is not received. Any other is: after a
faulty character its start bit shows that RXD has returned high. -/
def onCharacter (k : State → State) (s : State) : Out :=
  let u := { s with link := { s.link with front := .seeking } }
  whenPowered s
    (match s.link.front with
    | .leavingOut => u
    | .seeking | .awaitingHigh => k u)

/-- BYTE_TAKEN: the receiver takes a byte (R159). -/
def execByteTaken (b : Byte) (s : State) : Out := onCharacter (receiveByte b) s

/-- LENGTH_BYTE_ABOVE_240: the receiver in LEN takes the byte and abandons the frame (R160). A byte in another state or of another
value is what R159 makes of it (log 11). -/
def execLengthByteAbove240 (b : Byte) (s : State) : Out := onCharacter (receiveByte b) s

/-- REQUEST_FRAME_RECEIVED: the second CRC byte completes a valid request frame (R162, R164; log 11). -/
def execRequestFrameReceived (b : Byte) (s : State) : Out := onCharacter (receiveByte b) s

/-- ACK: the second CRC byte completes a valid acknowledgment frame (R149, R162; log 11). -/
def execAck (b : Byte) (s : State) : Out := onCharacter (receiveByte b) s

/-- FRAME_DISCARDED: the second CRC byte completes a frame that fails its CRC or has a kind of 0x80 or above (R162; log 11). -/
def execFrameDiscarded (b : Byte) (s : State) : Out := onCharacter (receiveByte b) s

/-- A faulty character: in HUNT it is discarded, in any other state the frame is abandoned (R159). The receiver then waits for RXD to
return high (R157). -/
def receiveFaulty (s : State) : State :=
  let s := { s with link := { s.link with front := .awaitingHigh } }
  match s.link.rx with
  | .hunt => s
  | .within _ _ => abandon s

/-- FRAMING_ERROR: the receiver takes a faulty character (R157, R159). -/
def execFramingError (s : State) : Out := onCharacter receiveFaulty s

/-- The gap limit is reached at this instant (R161). -/
def gapDue (s : State) : Bool :=
  s.hwReset.isNone &&
    match s.link.rx with
    | .hunt => false
    | .within last _ => last + Config.gapLimit == s.now

/-- GAP_LIMIT: 2001 µs have passed inside a frame with no byte taken (R161). -/
def execGapLimit (s : State) : Out := .next (if gapDue s then abandon s else s)

/-! ### The end of a reply (section 9.6, R167, R171, R180) -/

/-- The reply slot empties (R167). -/
def emptySlot (s : State) : State := { s with disp := { s.disp with slot := .empty } }

/-- The arbiter may take a notice before the Dispatcher takes the request that waits (R166). -/
def maybeSendBefore (s : State) : State := if s.link.holding.isSome then maybeSendNotice s else s

/-- REPLY_SENT: the slot empties; a pending soft reset takes effect; a waiting request is taken; the arbiter chooses the next
frame. After a soft reset the reply to the waiting request stands in the slot when the arbiter chooses (R180). A notice that was ready
before the request is taken before the request or after its reply, not between: the model's choice (R166, log 43). -/
def execReplySent (s : State) : Out :=
  .next
    (if frameDue .reply s then
      let s := emptySlot (freeTransmitter s)
      if s.disp.softReset then arbitrate (serveHeld (softReset s))
      else
        let s := maybeSendBefore s
        arbitrateAfter (noticeReady s) (serveHeld s)
    else s)

end Sys2Proof.Machine
end

