-- ==== Sys2Proof/Machine/Resets.lean ====
section
/-! DEFINITION. The hardware reset (R181): its beginning and its end. -/

namespace Sys2Proof.Machine

/-- The cause a reset reports: one that began at power-on reports power-on whatever NRESET does meanwhile (R181). -/
def resetCause (current : Option ResetCause) (cause : ResetCause) : ResetCause :=
  match current with
  | some .powerOn => .powerOn
  | _ => cause

/-- HARDWARE_RESET_BEGIN: everything stops, the field lines float, SAFEOUT goes low, frames in progress end where they stand, and
no block holds state (R82, R129, R168, R181). -/
def execHardwareResetBegin (cause : ResetCause) (s : State) : Out :=
  .next
    { clearBlocks s with
      now := 0
      hwReset := some (resetCause s.hwReset cause)
      safe := { safe := false, causes := CauseSet.none, nstop := .high, period := 0, timer := none, safeOut := .low }
      link := HostLink.afterHardwareReset
      disp := Dispatcher.afterReset
      pins := { s.pins with sync := .low }
      clearedAt := none
      putAt := none }

/-- HARDWARE_RESET_END: every block takes its hardware-reset state, the time base starts, the first samples of NSTOP and SYNC are
taken, and READY is raised (R29, R139, R155, R168, R181). A character under way at that moment will not be received (R168). The
transmitter takes READY next (log 8). -/
def execHardwareResetEnd (samples : FirstSamples) (midCharacter : Bool) (s : State) : Out :=
  .next
    (match s.hwReset with
    | none => s
    | some cause =>
      announceReset (resetSubject cause)
        { clearBlocks s with
          now := 0
          hwReset := none
          safe := { safe := false, causes := CauseSet.none, nstop := samples.nstop, period := 0, timer := none, safeOut := .high }
          link := { HostLink.afterHardwareReset with front := if midCharacter then .leavingOut else .seeking }
          disp := Dispatcher.afterReset
          pins := { s.pins with sync := samples.sync }
          clearedAt := none
          putAt := none })

end Sys2Proof.Machine
end

