-- ==== Sys2Proof/Machine/Walker.lean ====
section
/-! DEFINITION. The Step Walker (chapter 3): firing the step at the walk pointer and handing it on. -/

namespace Sys2Proof.Machine

/-- An EMIT handed to the Output Drivers (R53): suppressed while SAFE is set (R98). The reply to a QUEUE_PUT of the same instant
reports the fill it leaves (R88). -/
def handEmit (ch : ChanIx) (slot : SlotIx) (cycle : CycleNo) (s : State) : Option (State × List Raised) :=
  match s.chan ch with
  | .level c =>
    if s.safe.safe then some (s, [])
    else
      let p := c.emit ch slot cycle
      some (reportFill ch p.1.queue.length (s.setChan ch (.level p.1)), p.2)
  | .burst c =>
    if s.safe.safe then some (s, [])
    else
      let p := c.emit s.now ch slot cycle
      some (reportFill ch p.1.queue.length (s.setChan ch (.burst p.1)), p.2)
  | _ => none

/-- A SAMPLE handed to the Input Capture: the lines are read and a record is appended (R54, R112). -/
def handSample (ch : ChanIx) (slot : SlotIx) (cycle : CycleNo) (s : State) : Option (State × List Raised) :=
  match s.chan ch with
  | .sample c =>
    let p := c.append ch { cycle := cycle, slot := slot, value := c.cfg.run.read s.pins.lines }
    some (s.setChan ch (.sample p.1), p.2)
  | _ => none

/-- An OPEN handed to the Input Capture (R55, R114). -/
def handOpen (ch : ChanIx) (s : State) : Option (State × List Raised) :=
  match s.chan ch with
  | .edge c => some (s.setChan ch (.edge (c.openWindow s.pins.lines)), [])
  | _ => none

/-- A CLOSE handed to the Input Capture (R55, R115). -/
def handClose (ch : ChanIx) (s : State) : Option (State × List Raised) :=
  match s.chan ch with
  | .edge c => some (s.setChan ch (Channel.closeWindow (.edge c)), [])
  | _ => none

/-- The hand-off of a fired step, with the notice it raises (R53 to R56); `none` for a channel that cannot take the action. -/
def handOff (slot : SlotIx) (st : Step) (cycle : CycleNo) (s : State) : Option (State × List Raised) :=
  match st.action with
  | .emit ch => handEmit ch slot cycle s
  | .sample ch => handSample ch slot cycle s
  | .openWindow ch => handOpen ch s
  | .closeWindow ch => handClose ch s
  | .mark => some (s, [{ kind := .mark, subject := some st.tag, detail := slot.val, cycle := cycle }])

/-- The walk after a firing: the pointer at the step's next, one step fewer remaining (R50). -/
def Walk.passed (st : Step) (w : Walk) : Walk := { w with pointer := st.next, remaining := w.remaining - 1 }

/-- The notices of the steps fired at one offset are taken once no more of them is to fire at this instant (R51, log 10). A frame that
ends between two of them leaves the transmitter free before the notice of the first is taken: the model's choice (R146, log 36). So is that
a free transmitter is asked at the end of this step, before a later command of the instant raises its own notices (R146, log 39). -/
def settleFirings (s : State) : State := if stepDue s then s else arbitrate (takeRaised s)

/-- Firing a step: the hand-off, then the pointer moves (R50). -/
def fireStep (slot : SlotIx) (st : Step) (s : State) : Out :=
  match handOff slot st (s.walk.cycle.getD s.engine.cycle) s with
  | none => .fault .unfitChannel
  | some (t, rs) => .next (settleFirings { t with walk := t.walk.passed st, raising := t.raising ++ rs })

/-- STEP_FIRE: the cycle time reaches the offset of the step at the walk pointer (R50). -/
def execStepFire (s : State) : Out :=
  if s.hwReset.isSome then .next s
  else
    match stepAtPointer s with
    | none => .next s
    | some (_, none) => .fault .emptySlotWalked
    | some (p, some (st, t)) => if t = s.now then fireStep p st s else .next s

end Sys2Proof.Machine
end

