-- ==== Sys2Proof/Machine/Timing.lean ====
section
/-! DEFINITION. What time does when no command waits (log 2): the events of the part that are due at the present instant, and the
count of the time base. -/

namespace Sys2Proof.Machine

/-- A command, if it is due. -/
def dueIf (b : Bool) (i : Instr) : List Instr := if b then [i] else []

/-- The part's own events that are due at this instant (R28, R50, R93, R119, R134, R147, R161, R167). -/
def dueEvents (s : State) : List Instr :=
  dueIf (frameDue .reply s) .replySent
    ++ dueIf (frameDue .notice s) .noticeFrameSent
    ++ dueIf (gapDue s) .gapLimit
    ++ dueIf (periodDue s) .periodBoundary
    ++ dueIf (deadlineDue s) .syncDeadline
    ++ dueIf (flywheelDue s) .flywheelBoundary
    ++ dueIf (stepDue s) .stepFire
    ++ dueIf (silenceDue s) .silenceTimerExpiry
    ++ dueIf (retransmitDue s) .retransmitTimerExpiry
    ++ (allChans.filter fun ch => phaseDue .on ch s).map .burstOnPhaseEnd
    ++ (allChans.filter fun ch => phaseDue .off ch s).map .burstOffPhaseEnd
    ++ (allChans.filter fun ch => debounceDue ch s).map .debounceConfirmed

/-- The due event that is taken next, in either order when there are several, with the state in which it is taken. -/
def nextEvent (s : State) : Option (Instr × State) :=
  let c := choose (dueEvents s).length s
  ((dueEvents s)[c.1]?).map fun i => (i, c.2)

/-- The transmitter is free and there is a frame to send (R166). -/
def frameReady (s : State) : Bool :=
  s.link.tx.isNone &&
    match s.disp.slot with
    | .waiting _ => true
    | _ => (s.notices.offer s.now).isSome

/-- No command waits and no event is due: raised notices are taken, a free transmitter takes a frame, and otherwise the time base
counts one microsecond (R27). During a hardware reset it does not count (R181). -/
def idle (s : State) : State :=
  if s.hwReset.isSome then s
  else if !s.raising.isEmpty then takeRaised s
  else if frameReady s then arbitrate s
  else { s with now := s.now + 1 }

end Sys2Proof.Machine
end

