-- ==== Sys2Proof/Machine/Dispatch.lean ====
section
/-! DEFINITION. The dispatch of a command to its meaning: one arm per row of spec/opcode_table.json. -/

namespace Sys2Proof.Machine

def exec (i : Instr) (s : State) : Host.Outcome State Fault Refusal :=
  match i with
  | .identify seq body => Sys2Proof.Machine.execIdentify seq body s
  | .status seq body => Sys2Proof.Machine.execStatus seq body s
  | .reset seq body => Sys2Proof.Machine.execReset seq body s
  | .cycleSet seq body => Sys2Proof.Machine.execCycleSet seq body s
  | .start seq body => Sys2Proof.Machine.execStart seq body s
  | .stop seq body => Sys2Proof.Machine.execStop seq body s
  | .stepPut seq body => Sys2Proof.Machine.execStepPut seq body s
  | .stepDrop seq body => Sys2Proof.Machine.execStepDrop seq body s
  | .planHead seq body => Sys2Proof.Machine.execPlanHead seq body s
  | .planClear seq body => Sys2Proof.Machine.execPlanClear seq body s
  | .planCopy seq body => Sys2Proof.Machine.execPlanCopy seq body s
  | .planRead seq body => Sys2Proof.Machine.execPlanRead seq body s
  | .planCommit seq body => Sys2Proof.Machine.execPlanCommit seq body s
  | .commitCancel seq body => Sys2Proof.Machine.execCommitCancel seq body s
  | .chanSet seq body => Sys2Proof.Machine.execChanSet seq body s
  | .chanRelease seq body => Sys2Proof.Machine.execChanRelease seq body s
  | .chanRead seq body => Sys2Proof.Machine.execChanRead seq body s
  | .chanEdge seq body => Sys2Proof.Machine.execChanEdge seq body s
  | .queuePut seq body => Sys2Proof.Machine.execQueuePut seq body s
  | .queueTake seq body => Sys2Proof.Machine.execQueueTake seq body s
  | .queueFlush seq body => Sys2Proof.Machine.execQueueFlush seq body s
  | .safe seq body => Sys2Proof.Machine.execSafe seq body s
  | .resume seq body => Sys2Proof.Machine.execResume seq body s
  | .silenceSet seq body => Sys2Proof.Machine.execSilenceSet seq body s
  | .unknownKind seq kind body => Sys2Proof.Machine.execUnknownKind seq kind body s
  | .requestFrameReceived b => Sys2Proof.Machine.execRequestFrameReceived b s
  | .ack b => Sys2Proof.Machine.execAck b s
  | .frameDiscarded b => Sys2Proof.Machine.execFrameDiscarded b s
  | .lengthByteAbove240 b => Sys2Proof.Machine.execLengthByteAbove240 b s
  | .framingError => Sys2Proof.Machine.execFramingError s
  | .gapLimit => Sys2Proof.Machine.execGapLimit s
  | .replySent => Sys2Proof.Machine.execReplySent s
  | .noticeFrameSent => Sys2Proof.Machine.execNoticeFrameSent s
  | .hardwareResetBegin cause => Sys2Proof.Machine.execHardwareResetBegin cause s
  | .hardwareResetEnd samples midCharacter => Sys2Proof.Machine.execHardwareResetEnd samples midCharacter s
  | .periodBoundary => Sys2Proof.Machine.execPeriodBoundary s
  | .syncRisingEdge => Sys2Proof.Machine.execSyncRisingEdge s
  | .syncDeadline => Sys2Proof.Machine.execSyncDeadline s
  | .flywheelBoundary => Sys2Proof.Machine.execFlywheelBoundary s
  | .stepFire => Sys2Proof.Machine.execStepFire s
  | .burstOnPhaseEnd ch => Sys2Proof.Machine.execBurstOnPhaseEnd ch s
  | .burstOffPhaseEnd ch => Sys2Proof.Machine.execBurstOffPhaseEnd ch s
  | .edgeLineChange levels => Sys2Proof.Machine.execEdgeLineChange levels s
  | .debounceConfirmed ch => Sys2Proof.Machine.execDebounceConfirmed ch s
  | .nstopLow => Sys2Proof.Machine.execNstopLow s
  | .nstopHigh => Sys2Proof.Machine.execNstopHigh s
  | .silenceTimerExpiry => Sys2Proof.Machine.execSilenceTimerExpiry s
  | .retransmitTimerExpiry => Sys2Proof.Machine.execRetransmitTimerExpiry s
  | .byteTaken b => Sys2Proof.Machine.execByteTaken b s
  | .syncFallingEdge => Sys2Proof.Machine.execSyncFallingEdge s

end Sys2Proof.Machine
end

