-- ==== Sys2Proof/Safety.lean ====
section
/-! DEFINITION. What the manual says of every state of the part: its laws, block by block, as predicates of State, and the words
in which the statements about one command are put. -/

namespace Sys2Proof.Machine

/-! ### The plan law (R23, R24, R46) -/

/-- A plan whose chain passes every check of R14 under a period and the present channels. -/
def PlanTable.valid (period : Nat) (records : Vector Channel 16) (t : PlanTable) : Bool :=
  match validate t period records with
  | .ok _ => true
  | .error _ => false

/-- The walk record follows the active plan (R46, R49): a pointer that names a slot belongs to a running cycle and names a filled slot
of the active chain, and `remaining` counts the steps from it on. -/
def walkOnPlan (s : State) : Prop :=
  match s.walk.pointer with
  | none => s.walk.remaining = 0
  | some p =>
    s.engine.state = .running ∧ s.walk.table = some s.plans.active ∧ s.walk.cycle = some s.engine.cycle ∧
      (s.plans.activeTable.slots.get p).isSome = true ∧
      chainFrom s.plans.activeTable 48 (some p) <:+ s.plans.activeTable.chain ∧
      s.walk.remaining = (chainFrom s.plans.activeTable 48 (some p)).length

/-- The laws of R23 and R24, with the walk record of R46. -/
def PlanLaw (s : State) : Prop :=
  s.plans.activeTable.valid s.engine.period s.chans.records = true ∧
  (s.plans.swapPending = true →
    s.engine.state ≠ .stopped ∧ s.plans.standby.valid s.engine.period s.chans.records = true) ∧
  walkOnPlan s

/-! ### The engine law (R28, R113, R116) -/

/-- A channel with an edge window that is OPEN. -/
def Channel.windowOpen : Channel → Bool
  | .edge c => c.window == .opened
  | _ => false

/-- A channel whose window is CLOSED has no debounce in progress (R116). -/
def Channel.quietWhenClosed : Channel → Bool
  | .edge c => c.window == .opened || c.debounces == noDebounces
  | _ => true

/-- What R28 says of the fields of the engine, R46 and R47 of the walk outside a cycle, and R116 of edge windows. -/
def EngineLaw (s : State) : Prop :=
  Config.periodMin ≤ s.engine.period ∧ s.engine.period ≤ Config.periodMax ∧
  (s.engine.state = .running ↔ s.engine.cycleStart.isSome = true) ∧
  s.engine.nextBoundary = s.engine.cycleStart.map s.engine.boundaryAfter ∧
  (s.engine.stopPending = true → s.engine.state = .running) ∧
  (s.engine.flywheel = true → s.engine.state = .running ∧ s.engine.mode = .sync) ∧
  (s.engine.state = .armed → s.engine.mode = .sync) ∧
  (s.engine.state ≠ .running → s.walk = Walk.absent) ∧
  (∀ ch : ChanIx, (s.chan ch).windowOpen = true → s.engine.state = .running) ∧
  (∀ ch : ChanIx, (s.chan ch).quietWhenClosed = true)

/-! ### The channel law (R63 to R68) -/

/-- A run of 1 to 8 lines inside one port (R63). -/
def Run.fits (r : Run) : Bool := decide (1 ≤ r.width) && decide (r.first.val + r.width ≤ 8)

/-- A depth of R63. -/
def depthFits (depth : Nat) : Bool := decide (Config.depthMin ≤ depth) && decide (depth ≤ Config.depthMax)

/-- The ranges of the fields of an output channel (R63). -/
def OutConfig.fits (c : OutConfig) : Bool :=
  c.run.fits && depthFits c.depth && decide (c.mark ≤ c.depth - 1) && decide (c.idle.toNat ≤ 2 ^ c.run.width - 1)
    && decide (c.safe.toNat ≤ 2 ^ c.run.width - 1)

/-- The ranges of the fields of an input channel (R63). -/
def InConfig.fits (c : InConfig) : Bool :=
  c.run.fits && depthFits c.depth && decide (1 ≤ c.mark) && decide (c.mark ≤ c.depth)

/-- A line value of a run has no bit at or above the width (R84, R183). -/
def Run.holds (r : Run) (v : LineValue) : Bool := decide (v.toNat ≤ 2 ^ r.width - 1)

/-- A BURST record whose numbers lie in their ranges (R85). -/
def BurstRec.fits (r : BurstRec) : Bool :=
  decide (1 ≤ r.count) && decide (r.count ≤ 65535) && decide (1 ≤ r.onTime) && decide (r.onTime ≤ 65535)
    && decide (1 ≤ r.offTime) && decide (r.offTime ≤ 65535)

/-- A BURST record in a channel of a run (R85). -/
def BurstRec.fitsIn (run : Run) (r : BurstRec) : Bool := r.fits && run.holds r.active

/-- A burst in flight: its record, and 1 to 65,535 pulses remaining, no more than it has in all (R64, R93). -/
def Burst.fits (run : Run) (b : Burst) : Bool :=
  b.played.fitsIn run && decide (1 ≤ b.remaining) && decide (b.remaining ≤ b.played.count)

/-- A cycle time below the length of the longest cycle, 1,125,000 µs (R108). -/
def cycleTimeFits (offset : Nat) : Bool := decide (offset ≤ 1124999)

/-- An EDGE record: a line of the run and a cycle time of R108. -/
def EdgeRec.fits (run : Run) (r : EdgeRec) : Bool := decide (r.line.val < run.width) && cycleTimeFits r.offset

/-- The fields of a channel lie in their ranges: configuration (R63), values, counts and burst (R64, R84), records (R85, R108). -/
def Channel.fits : Channel → Bool
  | .free => true
  | .level c => c.cfg.fits && c.cfg.run.holds c.value && c.queue.all c.cfg.run.holds
  | .burst c =>
    c.cfg.fits && c.cfg.run.holds c.value && c.queue.all (BurstRec.fitsIn c.cfg.run) && c.burst.all (Burst.fits c.cfg.run)
      && decide (c.skips ≤ Config.counterMax)
  | .sample c => c.cfg.fits && c.queue.all (fun r => c.cfg.run.holds r.value) && decide (c.lost ≤ Config.counterMax)
  | .edge c =>
    c.cfg.fits && decide (c.debounce ≤ 255) && c.queue.all (EdgeRec.fits c.cfg.run) && decide (c.lost ≤ Config.counterMax)
      && c.cfg.run.holds c.settled

/-- The stamps of the debounces in progress of one channel (R117): a cycle time of R108, or that of a change found at the very instant
at which the cycle is to end, before the boundary has moved it (R121). -/
def Channel.stampsFit (now : Nat) (nextBoundary : Option Nat) : Channel → Bool
  | .edge c =>
    allLines.all fun i => (c.debounces.get i).all fun d => cycleTimeFits d.offset || (d.began == now && nextBoundary == some now)
  | _ => true

/-- Whether field line `n` belongs to the run of a channel. -/
def Channel.ownsLine (n : Fin 32) (c : Channel) : Bool := (c.run?.map fun r => r.covers n.val).getD false

/-- The places held by all channels together (R67). -/
def placesHeld (s : State) : Nat := (allChans.map fun ch => (s.chan ch).places).sum

/-- Field ranges (R63, R64, R84, R85, R108), the line map (R65), the queue law (R68) and the free count (R67). -/
def ChannelLaw (s : State) : Prop :=
  (∀ ch : ChanIx, (s.chan ch).fits = true) ∧
  (∀ ch : ChanIx, (s.chan ch).stampsFit s.now s.engine.nextBoundary = true) ∧
  (∀ ch : ChanIx, (s.chan ch).fill ≤ (s.chan ch).places) ∧
  (∀ (n : Fin 32) (ch : ChanIx), s.chans.lineMap.get n = some ch ↔ (s.chan ch).ownsLine n = true) ∧
  s.chans.freeCount + placesHeld s = Config.poolPlaces

/-! ### The safe law (R94, R128, R129) -/

/-- A channel whose lines, if it is an output, are at its safe value with no burst in flight. -/
def Channel.atSafe : Channel → Bool
  | .level c => c.value == c.cfg.safe
  | .burst c => c.value == c.cfg.safe && c.burst.isNone
  | _ => true

/-- SAFE is set exactly while there is a cause (R128); SAFEOUT shows SAFE, and is low during a hardware reset (R129, R181); while
SAFE is set every output channel is at its safe value with no burst in flight (R94, R129). -/
def SafeLaw (s : State) : Prop :=
  (s.safe.safe = true ↔ s.safe.causes ≠ CauseSet.none) ∧
  (s.hwReset = none → s.safe.safeOut = safeOutFor s.safe.safe) ∧
  (s.hwReset ≠ none → s.safe.safe = false ∧ s.safe.safeOut = .low) ∧
  (s.safe.safe = true → ∀ ch : ChanIx, (s.chan ch).atSafe = true)

/-! ### The notice law (R140, R145, R147, R152) -/

/-- The sequence number of a SENT entry. -/
def Notice.number? (e : Notice) : Option Byte :=
  match e.state with
  | .sent num _ => some num
  | .unsent => none

/-- A SENT entry whose resend is due. -/
def Notice.resendIsDue (e : Notice) : Bool :=
  match e.state with
  | .sent _ due => due
  | .unsent => false

/-- Two entries of the same kind and subject. -/
def Notice.matches (a b : Notice) : Bool := a.kind == b.kind && a.subject == b.subject

/-- The law of R152 with the window of R145: at most 15 ordinary entries and one OVERFLOW, at most 4 SENT, these the oldest with
consecutive numbers up to the last one given, and no two UNSENT entries that match; the ranges of R140; what R142 and R150 make of
the tally, and R147 and R148 of the timer. A block raises no OVERFLOW (R140). -/
def NoticeLaw (s : State) : Prop :=
  ordinaryCount s.notices.queue ≤ Config.noticeEntries ∧
  s.notices.queue.countP Notice.isOverflow ≤ 1 ∧
  sentCount s.notices.queue ≤ Config.noticeWindow ∧
  s.notices.queue.map Notice.number? =
    (List.range (sentCount s.notices.queue)).map
      (fun i => some (s.notices.nextNum - byteOf (sentCount s.notices.queue) + byteOf i))
      ++ List.replicate (s.notices.queue.length - sentCount s.notices.queue) none ∧
  (s.notices.queue.filter Notice.isUnsent).Pairwise (fun a b => a.matches b = false) ∧
  (∀ e ∈ s.notices.queue, 1 ≤ e.count ∧ e.count ≤ 255) ∧
  s.notices.tally ≤ 255 ∧
  (s.notices.tally ≠ 0 → ∃ e ∈ s.notices.queue, e.isOverflow = true ∧ e.isSent = true) ∧
  (sentCount s.notices.queue = 0 → s.notices.timer = none) ∧
  (s.notices.timer = none → ∀ e ∈ s.notices.queue, e.isSent = true → e.resendIsDue = true) ∧
  (∀ r ∈ s.raising, r.kind ≠ .overflow)

/-! ### The link law (R164 to R167, R170, R171, R179) -/

/-- The reply slot and the transmitter agree: a reply waits only behind a notice frame, and the reply in transmission is the frame
on TXD (R165, R166, R170). -/
def slotOnLine : ReplySlot → Option TxFrame → Prop
  | .empty, none => True
  | .empty, some f => f.source = .notice
  | .waiting _, none => False
  | .waiting _, some f => f.source = .notice
  | .inTransmission _, none => False
  | .inTransmission r, some f => f.source = .reply ∧ f.bytes = r.bytes

/-- The slot and the transmitter agree; a request waits in the holding buffer, and a soft reset is pending, only while the slot holds
a reply (R171, R179, R180); the error count saturates (R163). -/
def LinkLaw (s : State) : Prop :=
  slotOnLine s.disp.slot s.link.tx ∧
  (s.link.holding.isSome = true → s.disp.slot ≠ .empty) ∧
  (s.disp.softReset = true → s.disp.slot ≠ .empty) ∧
  s.link.errors ≤ Config.counterMax

/-! ### The law of appointments (R27, R28, R50, R62, R93, R134, R147, R161, R165) -/

/-- An appointment that is not in the past. -/
def notPast (now : Nat) (appointment : Option Nat) : Prop := ∀ t ∈ appointment, now ≤ t

/-- The instant at which the gap limit is reached (R161). -/
def Receiver.gapEnd : Receiver → Option Nat
  | .hunt => none
  | .within last _ => some (last + Config.gapLimit)

/-- The instant at which the step at the walk pointer fires (R50). -/
def State.stepInstant (s : State) : Option Nat :=
  match stepAtPointer s with
  | some (_, some (_, t)) => some t
  | _ => none

/-- No boundary, step, timer, frame end, gap limit or burst phase end is overdue: the part's own events happen at their instants (R50,
R62). Only a RUNNING engine has a next internal boundary (R28). -/
def TimeLaw (s : State) : Prop :=
  (s.engine.nextBoundary.isSome = true → s.engine.state = .running) ∧
  notPast s.now s.engine.nextBoundary ∧ notPast s.now s.stepInstant ∧ notPast s.now s.safe.timer ∧ notPast s.now s.notices.timer ∧
  notPast s.now (s.link.tx.map TxFrame.endsAt) ∧ notPast s.now s.link.rx.gapEnd ∧
  (∀ ch : ChanIx, notPast s.now ((s.chan ch).burst?.map Burst.phaseEnd))

/-! ### The debounce law (R117 to R119) -/

/-- A debounce in progress on line `i`: the line shows the new level, which is not the settled one, and its time is not over. -/
def Debounce.running (now : Nat) (time : Nat) (value settled : LineValue) (i : Fin 8) (d : Debounce) : Bool :=
  decide (d.began ≤ now) && decide (now ≤ d.began + time) && levelOf value i == d.level && levelOf settled i != d.level

/-- The debounces in progress of one channel under the levels at the field lines. -/
def Channel.debouncesRun (now : Nat) (lines : BitVec 32) : Channel → Bool
  | .edge c =>
    allLines.all fun i => (c.debounces.get i).all fun d =>
      decide (i.val < c.cfg.run.width) && c.window == .opened && d.running now c.debounce (c.cfg.run.read lines) c.settled i
  | _ => true

/-- A debounce in progress stands on a line of the run of an OPEN window that shows the new level and has not shown it longer than
the debounce time (R117 to R119); during a hardware reset there is none (R181). -/
def DebounceLaw (s : State) : Prop :=
  (s.hwReset.isSome = true → ∀ ch : ChanIx, s.chan ch = .free) ∧
  ∀ ch : ChanIx, (s.chan ch).debouncesRun s.now s.pins.lines = true

/-! ### Words of the statements: requests -/

/-- The request frame that a request command stands for. -/
def requestFrame? : Instr → Option Frame
  | .identify seq body => some ⟨seq, 0x01, body⟩
  | .status seq body => some ⟨seq, 0x02, body⟩
  | .reset seq body => some ⟨seq, 0x03, body⟩
  | .cycleSet seq body => some ⟨seq, 0x04, body⟩
  | .start seq body => some ⟨seq, 0x05, body⟩
  | .stop seq body => some ⟨seq, 0x06, body⟩
  | .stepPut seq body => some ⟨seq, 0x08, body⟩
  | .stepDrop seq body => some ⟨seq, 0x09, body⟩
  | .planHead seq body => some ⟨seq, 0x0A, body⟩
  | .planClear seq body => some ⟨seq, 0x0B, body⟩
  | .planCopy seq body => some ⟨seq, 0x0C, body⟩
  | .planRead seq body => some ⟨seq, 0x0D, body⟩
  | .planCommit seq body => some ⟨seq, 0x0E, body⟩
  | .commitCancel seq body => some ⟨seq, 0x0F, body⟩
  | .chanSet seq body => some ⟨seq, 0x10, body⟩
  | .chanRelease seq body => some ⟨seq, 0x11, body⟩
  | .chanRead seq body => some ⟨seq, 0x12, body⟩
  | .chanEdge seq body => some ⟨seq, 0x13, body⟩
  | .queuePut seq body => some ⟨seq, 0x14, body⟩
  | .queueTake seq body => some ⟨seq, 0x15, body⟩
  | .queueFlush seq body => some ⟨seq, 0x16, body⟩
  | .safe seq body => some ⟨seq, 0x18, body⟩
  | .resume seq body => some ⟨seq, 0x19, body⟩
  | .silenceSet seq body => some ⟨seq, 0x1A, body⟩
  | .unknownKind seq kind body => if unknownKindCode kind then some ⟨seq, kind, body⟩ else none
  | .requestFrameReceived _ | .ack _ | .frameDiscarded _ | .lengthByteAbove240 _ | .framingError | .gapLimit
  | .replySent | .noticeFrameSent | .hardwareResetBegin _ | .hardwareResetEnd _ _ | .periodBoundary
  | .syncRisingEdge | .syncDeadline | .flywheelBoundary | .stepFire | .burstOnPhaseEnd _ | .burstOffPhaseEnd _
  | .edgeLineChange _ | .debounceConfirmed _ | .nstopLow | .nstopHigh | .silenceTimerExpiry
  | .retransmitTimerExpiry | .byteTaken _ | .syncFallingEdge => none

/-- The least and the greatest body length of a request kind (section 12.4, R86). -/
def bodyLengths? : Byte → Option (Nat × Nat)
  | 0x01 | 0x03 | 0x05 | 0x0B | 0x0C | 0x0E | 0x0F | 0x18 | 0x19 => some (0, 0)
  | 0x02 | 0x06 | 0x09 | 0x0A | 0x11 | 0x16 => some (1, 1)
  | 0x0D | 0x12 | 0x15 | 0x1A => some (2, 2)
  | 0x13 => some (3, 3)
  | 0x04 => some (5, 5)
  | 0x08 => some (9, 9)
  | 0x10 => some (13, 13)
  | 0x14 => some (2, 113)
  | _ => none

/-- The Dispatcher can take the request and it is no duplicate of the last one carried out (R171, R172). -/
abbrev TakenAsNew (f : Frame) (s : State) : Prop := canTake f s = true ∧ s.link.last.map Prod.fst ≠ some f

/-- The state with the holding buffer empty, and the request with its reply stored and the reply placed in the slot (R171, R173). The
reply has the SEQ of the request, its kind plus 0x80 and the body (R175). -/
def State.replied (f : Frame) (body : List Byte) (s : State) : State :=
  let reply : Frame := { seq := f.seq, kind := f.kind + 0x80, body := body }
  { s with
    link := { s.link with holding := none, last := some (f, reply) }
    disp := { s.disp with slot := .waiting reply } }

/-- A request is answered with a body and its other effect is that of `u`; the arbiter then chooses (R166), without the notices of steps
fired at this instant that are still held (the model's choice, log 10). -/
def AnsweredFrom (u : State) (f : Frame) (body : List Byte) : Out := .next (arbitrate (u.replied f body))

/-- The body of a STEP_PUT (section 12.4). -/
def stepBody (p : SlotIx) (st : Step) : List Byte :=
  ixByte p :: le32 st.offset ++ [st.action.code, st.action.channelByte, st.tag, slotByte st.next]

/-- The body of a CHAN_SET of an output kind; bytes 10 to 12 are fields the kind does not hold (R70, section 12.4). -/
def outSetBody (ch : ChanIx) (kind : Byte) (c : OutConfig) (x y z : Byte) : List Byte :=
  [ixByte ch, kind, ixByte c.run.port, ixByte c.run.first, byteOf c.run.width, byteOf c.depth, byteOf c.mark, c.idle, c.safe,
    c.starve.code, x, y, z]

/-- The body of a CHAN_SET of an input kind; bytes 7 to 9 are fields the kind does not hold (R70, section 12.4). -/
def inSetBody (ch : ChanIx) (kind : Byte) (c : InConfig) (x y z select debounce : Byte) : List Byte :=
  [ixByte ch, kind, ixByte c.run.port, ixByte c.run.first, byteOf c.run.width, byteOf c.depth, byteOf c.mark, x, y, z,
    c.full.code, select, debounce]

/-- A CHAN_SET body that asks for a configuration; `x`, `y`, `z` fill the fields its kind does not hold. -/
def setupBody (ch : ChanIx) (x y z : Byte) : Setup → List Byte
  | .level c => outSetBody ch 1 c x y z
  | .burst c => outSetBody ch 2 c x y z
  | .sample c => inSetBody ch 3 c x y z x y
  | .edge c select debounce => inSetBody ch 4 c x y z select.code (byteOf debounce)

/-- A configuration whose fields lie in their ranges (R63). -/
def Setup.fits : Setup → Bool
  | .level c => c.fits
  | .burst c => c.fits
  | .sample c => c.fits
  | .edge c _ debounce => c.fits && decide (debounce ≤ 255)

/-- The seven bytes of a BURST record in a QUEUE_PUT body (section 12.6). -/
def BurstRec.bytes (r : BurstRec) : List Byte := r.active :: le16 r.count ++ le16 r.onTime ++ le16 r.offTime

/-! ### Words of the statements: notices and the transmitter -/

/-- A reply slot with the difference between waiting and in transmission left out. -/
def ReplySlot.staged : ReplySlot → ReplySlot
  | .inTransmission r => .waiting r
  | x => x

/-- What a state holds beside the Notice Unit, the notices raised, the transmitter and the count of free choices. -/
def State.besideNotices (s : State) : State :=
  { s with
    notices := NoticeUnit.emptied
    raising := []
    choices := 0
    link := { s.link with tx := none }
    disp := { s.disp with slot := s.disp.slot.staged } }

/-- The Notice Unit after it has taken some notices one after another. -/
def takeAll (rs : List Raised) (n : NoticeUnit) : NoticeUnit := rs.foldl (fun n r => n.take r) n

/-- An order in which the Notice Unit may take notices raised at one instant: those of one source as they were raised, those of
different sources in either order (R143). -/
def InOrder (rs order : List Raised) : Prop :=
  order.Perm rs ∧ ∀ k : Nat, (order.filter fun r => r.source == k) = rs.filter fun r => r.source == k

/-- A frame on TXD from an instant on (R165). -/
def TxFrame.begun (source : TxSource) (f : Frame) (now : Nat) : TxFrame :=
  { bytes := f.bytes, source := source, endsAt := now + frameTime f.bytes.length }

/-- The state `t` is `u` with notices taken in some order, the transmitter not asked after the last of them (R143, R146): either all are taken and
nothing else has changed, or, the transmitter being free, it has begun the notice frame offered once some of them were taken. -/
def Taken (u t : State) (order : List Raised) : Prop :=
  (t.link.tx = u.link.tx ∧ t.disp = u.disp ∧ t.notices = takeAll order u.notices) ∨
  (u.link.tx = none ∧ ∃ taken rest f n, order = taken ++ rest ∧ taken ≠ [] ∧
    (takeAll taken u.notices).offer u.now = some (f, n) ∧ t.notices = takeAll rest n ∧ t.disp = u.disp ∧
    t.link.tx = some (TxFrame.begun .notice f u.now))

/-- The state `t` is `u` with notices taken in some order and the transmitter asked. A busy transmitter goes on and the Notice Unit has
taken them all. A free one has either begun the notice frame that the Notice Unit offered once some of them were taken (before a waiting
reply only if at least one was: R166, log 9), or, all of them taken, the waiting reply; with no reply waiting and nothing on offer it
stays free. -/
def Settled (u t : State) (order : List Raised) : Prop :=
  match u.link.tx with
  | some x => t.link.tx = some x ∧ t.disp = u.disp ∧ t.notices = takeAll order u.notices
  | none =>
    (∃ taken rest f n, order = taken ++ rest ∧ (taken = [] → ∀ r, u.disp.slot ≠ .waiting r) ∧
      (takeAll taken u.notices).offer u.now = some (f, n) ∧ t.notices = takeAll rest n ∧ t.disp = u.disp ∧
      t.link.tx = some (TxFrame.begun .notice f u.now)) ∨
    (t.notices = takeAll order u.notices ∧
      match u.disp.slot with
      | .waiting r =>
        t.disp = { u.disp with slot := .inTransmission r } ∧ t.link.tx = some (TxFrame.begun .reply r u.now)
      | _ => t.notices.offer u.now = none ∧ t.disp = u.disp ∧ t.link.tx = none)

/-- The state `t` is `u` with the notices `rs` raised, taken by the Notice Unit, and the transmitter asked: with no other notice on its
way, none of them is lost and nothing else changes. That the transmitter is asked with these notices, before any other event of the instant,
is the model's choice (log 39), and so is that they stand behind those of earlier commands of the instant (log 42) and that no event of
the instant comes between two of them (log 44). -/
def RaisedFrom (u t : State) (rs : List Raised) : Prop :=
  t.besideNotices = u.besideNotices ∧
  (u.raising = [] → t.raising = [] ∧ ∃ order, InOrder rs order ∧ Settled u t order)

/-- A step has fired (R50, R51): the state is `u` with the notices `rs` raised behind those of earlier steps of its offset. While another
step is due at this instant they are all held; then they are all taken and the transmitter is asked (the model's choice, logs 10, 39 and
42). -/
def FiredFrom (u t : State) (rs : List Raised) : Prop :=
  t.besideNotices = u.besideNotices ∧
  if stepDue u then t.raising = u.raising ++ rs ∧ t.notices = u.notices ∧ t.link = u.link ∧ t.disp = u.disp
  else t.raising = [] ∧ ∃ order, InOrder (u.raising ++ rs) order ∧ Settled u t order

/-- The step `st` in slot `p` is at the walk pointer and its offset is the cycle time (R50). -/
abbrev FiresNow (p : SlotIx) (st : Step) (s : State) : Prop :=
  s.hwReset = none ∧ stepAtPointer s = some (p, some (st, s.now))

/-- The walk cycle number (R46). -/
def State.walkCycle (s : State) : CycleNo := s.walk.cycle.getD s.engine.cycle

/-- The state after a fired step with a channel table changed by the hand-off (R50). -/
def State.fired (st : Step) (chans : ChannelTable) (s : State) : State :=
  { s with chans := chans, walk := s.walk.passed st }

end Sys2Proof.Machine
end

