-- ==== Sys2Proof/Certificates/Slice0/Obligations.lean ====
section
/-! DEFINITION. The statements about the FS32 that are to be proved. -/

open Sys2Proof Sys2Proof.Machine

/-! ### The step and the Dispatcher -/

/-- A step with commands waiting is the meaning of the first of them on the state whose queue is the rest. -/
def Obligations.StepRunsFrontCommand : Prop :=
  ∀ (c : Instr) (rest : List Instr) (s : State), s.pending = c :: rest → step s = exec c { s with pending := rest }

/-- With no command waiting (the model's choice, log 2): nothing happens during a hardware reset; an event of the part that is due is taken,
any one of them; with none due the notices that are held are taken; with none held a free transmitter takes the waiting reply, or else what
the Notice Unit offers; and with nothing of this to do the time base counts one microsecond (R27, R51, R143, R166, R181). -/
def Obligations.EmptyQueueCountsTime : Prop :=
  ∀ s : State, s.pending = [] →
    let due (c : Instr) : Prop :=
      (c = .periodBoundary ∧ periodDue s = true) ∨ (c = .syncDeadline ∧ deadlineDue s = true) ∨
      (c = .flywheelBoundary ∧ flywheelDue s = true) ∨ (c = .stepFire ∧ stepDue s = true) ∨
      (∃ ch, c = .burstOnPhaseEnd ch ∧ phaseDue .on ch s = true) ∨ (∃ ch, c = .burstOffPhaseEnd ch ∧ phaseDue .off ch s = true) ∨
      (∃ ch, c = .debounceConfirmed ch ∧ debounceDue ch s = true) ∨
      (c = .silenceTimerExpiry ∧ silenceDue s = true) ∨ (c = .retransmitTimerExpiry ∧ retransmitDue s = true) ∨
      (c = .gapLimit ∧ gapDue s = true) ∨ (c = .replySent ∧ frameDue .reply s = true) ∨
      (c = .noticeFrameSent ∧ frameDue .notice s = true)
    (s.hwReset.isSome = true → step s = .next s) ∧
    ((∃ c, due c) → ∃ c k, due c ∧ step s = exec c { s with choices := k }) ∧
    (s.hwReset = none → (∀ c, ¬ due c) →
      (s.raising ≠ [] → ∃ t, step s = .next t ∧ t.besideNotices = s.besideNotices ∧ t.raising = [] ∧
        ∃ order, InOrder s.raising order ∧ Taken s t order) ∧
      (s.raising = [] →
        (s.link.tx = none →
          (∀ r, s.disp.slot = .waiting r → step s = .next { s with
            disp := { s.disp with slot := .inTransmission r }
            link := { s.link with tx := some (TxFrame.begun .reply r s.now) } }) ∧
          (∀ f n, (∀ r, s.disp.slot ≠ .waiting r) → s.notices.offer s.now = some (f, n) → step s = .next { s with
            notices := n, link := { s.link with tx := some (TxFrame.begun .notice f s.now) } })) ∧
        ((s.link.tx.isSome = true ∨ (∀ r, s.disp.slot ≠ .waiting r) ∧ s.notices.offer s.now = none) →
          step s = .next { s with now := s.now + 1 })))

/-- A duplicate of the last request carried out is answered with the cached reply and changes nothing else (R172). -/
def Obligations.DuplicateAnsweredFromCache : Prop :=
  ∀ (c : Instr) (f r : Frame) (s : State), requestFrame? c = some f → canTake f s = true → s.link.last = some (f, r) →
    exec c s = .next (arbitrate { s with
      link := { s.link with holding := none }
      disp := { s.disp with slot := .waiting r } })

/-- A request whose body has a length its kind does not have is answered BAD_LENGTH and changes nothing else (R174, R175). That this
reply is the status alone for the edit requests too (kinds 0x08 to 0x0C) is the model's reading of R5 and R175 (log 25). -/
def Obligations.WrongLengthRefused : Prop :=
  ∀ (c : Instr) (f : Frame) (least greatest : Nat) (s : State),
    requestFrame? c = some f → TakenAsNew f s → bodyLengths? f.kind = some (least, greatest) →
    (f.body.length < least ∨ greatest < f.body.length) →
    exec c s = AnsweredFrom s f [0x10]

/-- IDENTIFY answers OK with family 0x0F32, revision 1, 32 lines, 16 channels, 48 slots, 512 places and 16 entries (R177); RESET answers
OK and sets the soft-reset-pending flag (R179); a request whose kind names none is answered UNKNOWN_KIND (R174). Nothing else changes. -/
def Obligations.IdentifyResetAndUnknownKind : Prop :=
  ∀ (seq : Byte) (s : State),
    (TakenAsNew ⟨seq, 0x01, []⟩ s →
      exec (.identify seq []) s
        = AnsweredFrom s ⟨seq, 0x01, []⟩ [0x00, 0x32, 0x0F, 0x01, 0x20, 0x10, 0x30, 0x00, 0x02, 0x10]) ∧
    (TakenAsNew ⟨seq, 0x03, []⟩ s →
      exec (.reset seq []) s
        = AnsweredFrom { s with disp := { s.disp with softReset := true } } ⟨seq, 0x03, []⟩ [0x00]) ∧
    (∀ (kind : Byte) (body : List Byte), unknownKindCode kind = true → TakenAsNew ⟨seq, kind, body⟩ s →
      exec (.unknownKind seq kind body) s = AnsweredFrom s ⟨seq, kind, body⟩ [0x12])

/-- STATUS reports the fields of the blocks in the order of section 12.5; with the clear flag the link error count is 0 afterwards, and
a flag above 1 is BAD_VALUE (R178). `clearedAt` remembers the instant of a clearing for R163; it is the model's own field (log 17). -/
def Obligations.StatusReports : Prop :=
  ∀ (seq flag : Byte) (s : State), TakenAsNew ⟨seq, 0x02, [flag]⟩ s →
    let reply := [0x00, s.engine.state.code, s.engine.mode.code,
        flagByte s.engine.stopPending + 2 * flagByte s.engine.flywheel]
      ++ le32 s.engine.period ++ le32 s.engine.cycle.toNat
      ++ [s.plans.active.code, flagByte s.plans.swapPending, flagByte s.safe.safe,
          flagByte s.safe.causes.request + 2 * flagByte s.safe.causes.stopLine + 4 * flagByte s.safe.causes.silence,
          levelCode s.safe.nstop, byteOf s.notices.queue.length]
      ++ le16 s.chans.freeCount ++ le16 s.safe.period ++ le16 s.link.errors
    (flag = 0 → exec (.status seq [flag]) s = AnsweredFrom s ⟨seq, 0x02, [flag]⟩ reply) ∧
    (flag = 1 → exec (.status seq [flag]) s
      = AnsweredFrom { s with link := { s.link with errors := 0 }, clearedAt := some s.now } ⟨seq, 0x02, [flag]⟩ reply) ∧
    (2 ≤ flag.toNat → exec (.status seq [flag]) s = AnsweredFrom s ⟨seq, 0x02, [flag]⟩ [0x11])

/-- The last byte of a reply is sent. Without a soft reset pending the slot empties; a request that waits in the holding buffer is then
taken as that request, before or after a notice that is ready begins its frame (R166, R171), and with none waiting the arbiter sends what
the Notice Unit offers. With a soft reset pending it takes effect first: plans, engine, walk and channels are as after reset, SAFE and
every cause are cleared, STOP_LINE is applied if NSTOP is low, READY has subject 2, and the link, the NSTOP level and the silence period
are kept; then a waiting request is taken as that request, and with none waiting READY is sent (R4, R29, R82, R139, R155, R167, R169,
R180). The model's reading: the waiting request is carried out in this same step (log 7), and SAFE_ENTERED of the reset carries cycle
number 0 (log 28). The model's choice: a free value decides between a notice and the waiting request, and after a soft reset the reply goes
first (log 9); where notices of steps fired at this instant are still held, the arbiter chooses without them (log 36); and a notice that was ready before
the waiting request is not taken between it and its reply (log 43). -/
def Obligations.ReplySentEmptiesSlotOrResets : Prop :=
  ∀ (s : State) (x : TxFrame), s.hwReset = none → s.link.tx = some x → x.source = .reply → x.endsAt = s.now →
    let freed : State := { s with link := { s.link with tx := none }, disp := { s.disp with slot := .empty } }
    let safeEntered (n : SendState) : List Notice :=
      if s.safe.nstop = .low then
        [{ kind := .safeEntered, subject := some 2, count := 1, cycle := 0, detail := 0, state := n }] else []
    let restarted : State := { s with
      plans := PlanStore.afterReset, engine := Engine.afterReset, walk := Walk.absent, chans := ChannelTable.afterReset
      disp := Dispatcher.afterReset, raising := [], link := { s.link with tx := none }
      safe := { safe := s.safe.nstop == .low
                causes := { request := false, stopLine := s.safe.nstop == .low, silence := false }
                nstop := s.safe.nstop
                period := s.safe.period
                timer := if s.safe.period = 0 then none else some (s.now + s.safe.period * 1000)
                safeOut := if s.safe.nstop = .low then .low else .high }
      notices := { queue := readyEntry 2 :: safeEntered .unsent, nextNum := 0, timer := none, tally := 0, tallyCycle := 0 } }
    (s.link.holding = none →
      (s.disp.softReset = false → exec .replySent s = .next (sendNotice freed)) ∧
      (s.disp.softReset = true → exec .replySent s = .next { restarted with
        link := { s.link with
          tx := some { bytes := (noticeFrame (readyEntry 2) 0).bytes, source := .notice,
                       endsAt := s.now + frameTime (noticeFrame (readyEntry 2) 0).bytes.length } }
        notices := { restarted.notices with
          queue := { readyEntry 2 with state := .sent 0 false } :: safeEntered .unsent
          nextNum := 1, timer := some (s.now + 100000) } })) ∧
    (∀ (c : Instr) (f : Frame), requestFrame? c = some f → s.link.holding = some f →
      (s.disp.softReset = false →
        (noticeReady freed = false → exec .replySent s = exec c freed) ∧
        (noticeReady freed = true → ∃ k, exec .replySent s = exec c { freed with choices := k } ∨
          exec .replySent s = exec c (sendNotice { freed with choices := k }))) ∧
      (s.disp.softReset = true → exec .replySent s = exec c restarted))

/-! ### Plans (chapter 1) -/

/-- STEP_PUT writes the step that its body carries into one slot of the standby plan and changes nothing else; the reply names the
standby table (R5, R6). -/
def Obligations.StepPutWritesSlot : Prop :=
  ∀ (seq : Byte) (p : SlotIx) (st : Step) (s : State), st.offset ≤ 999999 → s.plans.swapPending = false →
    TakenAsNew ⟨seq, 0x08, stepBody p st⟩ s →
    exec (.stepPut seq (stepBody p st)) s
      = AnsweredFrom
          { s with plans := s.plans.setStandby { s.plans.standby with slots := s.plans.standby.slots.set p.val (some st) p.isLt } }
          ⟨seq, 0x08, stepBody p st⟩ [0x00, s.plans.active.other.code]

/-- A STEP_PUT with a field out of range is answered BAD_VALUE and changes nothing else (R6). That this reply is the status alone is the
model's reading of R5 and R175 (log 25). -/
def Obligations.StepPutRangeRefused : Prop :=
  ∀ (seq slot o0 o1 o2 o3 action chan tag next : Byte) (s : State),
    let body := [slot, o0, o1, o2, o3, action, chan, tag, next]
    TakenAsNew ⟨seq, 0x08, body⟩ s →
    (47 < slot.toNat ∨
      999999 < o0.toNat + 256 * o1.toNat + 65536 * o2.toNat + 16777216 * o3.toNat ∨
      4 < action.toNat ∨
      (action = 4 ∧ chan ≠ 0xFF) ∨
      (action.toNat < 4 ∧ 15 < chan.toNat) ∨
      (47 < next.toNat ∧ next ≠ 0xFF)) →
    exec (.stepPut seq body) s = AnsweredFrom s ⟨seq, 0x08, body⟩ [0x11]

/-- STEP_DROP empties a slot, PLAN_HEAD sets the head, PLAN_CLEAR empties the standby plan and PLAN_COPY makes it equal to the active
plan; each changes the standby plan alone and names it in the reply; a STEP_DROP of a slot above 47 and a PLAN_HEAD of a value that is
neither a slot nor none are BAD_VALUE (R5, R7 to R10). That such a reply is the status alone is the model's reading of R5 and R175
(log 25). -/
def Obligations.StandbyEdits : Prop :=
  ∀ (seq : Byte) (s : State),
    (∀ b : Byte, 47 < b.toNat →
      (TakenAsNew ⟨seq, 0x09, [b]⟩ s → exec (.stepDrop seq [b]) s = AnsweredFrom s ⟨seq, 0x09, [b]⟩ [0x11]) ∧
      (b ≠ 0xFF → TakenAsNew ⟨seq, 0x0A, [b]⟩ s → exec (.planHead seq [b]) s = AnsweredFrom s ⟨seq, 0x0A, [b]⟩ [0x11])) ∧
    (s.plans.swapPending = false →
    let reply : List Byte := [0x00, s.plans.active.other.code]
    (∀ p : SlotIx, TakenAsNew ⟨seq, 0x09, [ixByte p]⟩ s →
      exec (.stepDrop seq [ixByte p]) s
        = AnsweredFrom
            { s with plans := s.plans.setStandby { s.plans.standby with slots := s.plans.standby.slots.set p.val none p.isLt } }
            ⟨seq, 0x09, [ixByte p]⟩ reply) ∧
    (∀ h : Option SlotIx, TakenAsNew ⟨seq, 0x0A, [slotByte h]⟩ s →
      exec (.planHead seq [slotByte h]) s
        = AnsweredFrom { s with plans := s.plans.setStandby { s.plans.standby with head := h } }
            ⟨seq, 0x0A, [slotByte h]⟩ reply) ∧
    (TakenAsNew ⟨seq, 0x0B, []⟩ s →
      exec (.planClear seq []) s
        = AnsweredFrom { s with plans := s.plans.setStandby { head := none, slots := Vector.replicate 48 none } }
            ⟨seq, 0x0B, []⟩ reply) ∧
    (TakenAsNew ⟨seq, 0x0C, []⟩ s →
      exec (.planCopy seq []) s
        = AnsweredFrom { s with plans := s.plans.setStandby s.plans.activeTable } ⟨seq, 0x0C, []⟩ reply))

/-- While a swap is pending every well-formed edit request is answered SWAP_PENDING with the standby table and changes nothing else
(R5). -/
def Obligations.EditsRefusedWhilePending : Prop :=
  ∀ (seq : Byte) (p : SlotIx) (st : Step) (h : Option SlotIx) (s : State), st.offset ≤ 999999 → s.plans.swapPending = true →
    let reply : List Byte := [0x21, s.plans.active.other.code]
    (TakenAsNew ⟨seq, 0x08, stepBody p st⟩ s →
      exec (.stepPut seq (stepBody p st)) s = AnsweredFrom s ⟨seq, 0x08, stepBody p st⟩ reply) ∧
    (TakenAsNew ⟨seq, 0x09, [ixByte p]⟩ s →
      exec (.stepDrop seq [ixByte p]) s = AnsweredFrom s ⟨seq, 0x09, [ixByte p]⟩ reply) ∧
    (TakenAsNew ⟨seq, 0x0A, [slotByte h]⟩ s →
      exec (.planHead seq [slotByte h]) s = AnsweredFrom s ⟨seq, 0x0A, [slotByte h]⟩ reply) ∧
    (TakenAsNew ⟨seq, 0x0B, []⟩ s → exec (.planClear seq []) s = AnsweredFrom s ⟨seq, 0x0B, []⟩ reply) ∧
    (TakenAsNew ⟨seq, 0x0C, []⟩ s → exec (.planCopy seq []) s = AnsweredFrom s ⟨seq, 0x0C, []⟩ reply)

/-- PLAN_READ reports the head of the table its selector names and one slot of it, and changes nothing; a selector above 3 or a slot
above 47 is BAD_VALUE (R11, section 12.5). -/
def Obligations.PlanReadReports : Prop :=
  ∀ (seq selector slot : Byte) (s : State), TakenAsNew ⟨seq, 0x0D, [selector, slot]⟩ s →
    (∀ (id : TableId) (p : SlotIx), slot = ixByte p →
      (selector = id.code ∨ (selector = 2 ∧ id = s.plans.active) ∨ (selector = 3 ∧ id = s.plans.active.other)) →
      exec (.planRead seq [selector, slot]) s
        = AnsweredFrom s ⟨seq, 0x0D, [selector, slot]⟩
            ([0x00, id.code, flagByte (id == s.plans.active), flagByte s.plans.swapPending,
              slotByte (s.plans.table id).head, slot] ++
              match (s.plans.table id).slots.get p with
              | none => [0, 0, 0, 0, 0, 0, 0, 0, 0]
              | some st => [1] ++ le32 st.offset ++ [st.action.code, st.action.channelByte, st.tag, slotByte st.next])) ∧
    ((3 < selector.toNat ∨ 47 < slot.toNat) →
      exec (.planRead seq [selector, slot]) s = AnsweredFrom s ⟨seq, 0x0D, [selector, slot]⟩ [0x11])

/-- PLAN_COMMIT: SWAP_PENDING while a swap is pending (R12); PLAN_INVALID with check and slot when validation fails (R15); in STOPPED the
tables change roles at once and PLAN_SWAPPED is raised (R16); in ARMED and RUNNING the swap becomes pending (R17). COMMIT_CANCEL clears a pending swap, and with none pending it is answered
NOT_PENDING (R20).
A free transmitter is asked at the end of the command, and the notices of an earlier command of the instant stand before these: the
model's choice (logs 39 and 42). -/
def Obligations.CommitAndCancel : Prop :=
  ∀ (seq : Byte) (s : State), (TakenAsNew ⟨seq, 0x0F, []⟩ s →
    (s.plans.swapPending = true →
      exec (.commitCancel seq []) s
        = AnsweredFrom { s with plans := { s.plans with swapPending := false } } ⟨seq, 0x0F, []⟩ [0x00]) ∧
    (s.plans.swapPending = false →
      exec (.commitCancel seq []) s = AnsweredFrom s ⟨seq, 0x0F, []⟩ [0x22])) ∧
    (TakenAsNew ⟨seq, 0x0E, []⟩ s →
    (s.plans.swapPending = true →
      exec (.planCommit seq []) s = AnsweredFrom s ⟨seq, 0x0E, []⟩ [0x21]) ∧
    (∀ (check : PlanCheck) (p : SlotIx), s.plans.swapPending = false →
      validate s.plans.standby s.engine.period s.chans.records = .error (check, p) →
      exec (.planCommit seq []) s = AnsweredFrom s ⟨seq, 0x0E, []⟩ [0x23, check.code, ixByte p]) ∧
    (∀ n : Nat, s.plans.swapPending = false → validate s.plans.standby s.engine.period s.chans.records = .ok n →
      (s.engine.state ≠ .stopped →
        exec (.planCommit seq []) s
          = AnsweredFrom { s with plans := { s.plans with swapPending := true } } ⟨seq, 0x0E, []⟩
              [0x00, 0x01, s.plans.active.other.code, byteOf n]) ∧
      (s.engine.state = .stopped → ∃ t, exec (.planCommit seq []) s = .next t ∧
        RaisedFrom
          (({ s with plans := { s.plans with active := s.plans.active.other } }).replied ⟨seq, 0x0E, []⟩
            [0x00, 0x00, s.plans.active.other.code, byteOf n])
          t
          [{ kind := .planSwapped, subject := some s.plans.active.other.code, detail := 0, cycle := s.engine.cycle }])))

/-- Validation succeeds exactly for a chain that ends at END, visits no slot twice, has offsets below the period that do not decrease, and
names for every step but MARK a channel of a fitting kind; the number it gives is the length of the chain. It fails at the first slot in
chain order that fails a check, with the lowest-numbered check that this slot fails: where the steps of a path before a slot pass, the slot
is reported for a broken chain if it is empty, else for a loop if the path has been there, else for its offset, else for its order, else
for its channel; the checks have the codes 1 to 5 (R3, R13, R14, R24, section 12.3). -/
def Obligations.ValidationMeansPlanLaw : Prop :=
  (∀ (t : PlanTable) (period : Nat) (records : Vector Channel 16),
    ((∃ n, validate t period records = .ok n) ↔
      ((t.chain.map Prod.fst).Nodup ∧
        (t.chain.getLast?.map fun x => x.2.next) = t.head.map (fun _ => none) ∧
        (∀ x ∈ t.chain, x.2.offset < period ∧ fitsKind records x.2.action = true) ∧
        t.chain.Pairwise fun x y => x.2.offset ≤ y.2.offset)) ∧
    (∀ n, validate t period records = .ok n → n = t.chain.length) ∧
    (∀ (path : List (SlotIx × Step)) (q : SlotIx), path <+: t.chain →
      (match path.getLast? with | none => t.head | some x => x.2.next) = some q →
      (path.map Prod.fst).Nodup →
      (∀ x ∈ path, x.2.offset < period ∧ fitsKind records x.2.action = true) →
      (path.Pairwise fun x y => x.2.offset ≤ y.2.offset) →
      let failsWith (check : PlanCheck) : Prop := validate t period records = .error (check, q)
      (t.slots.get q = none → failsWith .brokenChain) ∧
      (∀ st, t.slots.get q = some st →
        (q ∈ path.map Prod.fst → failsWith .loop) ∧
        (q ∉ path.map Prod.fst →
          (period ≤ st.offset → failsWith .offsetRange) ∧
          (st.offset < period →
            ((∃ x ∈ path, st.offset < x.2.offset) → failsWith .order) ∧
            ((∀ x ∈ path, x.2.offset ≤ st.offset) → fitsKind records st.action = false → failsWith .channelKind)))))) ∧
  PlanCheck.brokenChain.code = 1 ∧ PlanCheck.loop.code = 2 ∧ PlanCheck.offsetRange.code = 3 ∧ PlanCheck.order.code = 4 ∧
  PlanCheck.channelKind.code = 5

/-! ### The Cycle Engine (chapter 2) -/

/-- CYCLE_SET: BAD_VALUE for a period outside 250..1,000,000 or a mode code above 1; otherwise STATE outside STOPPED; otherwise
PLAN_INVALID with check 3 and the first slot of the active chain whose offset is not below the period; otherwise period and mode are
installed and nothing else changes (R26, R30). -/
def Obligations.CycleSetOutcomes : Prop :=
  ∀ (seq mode : Byte) (period : Nat) (s : State), period < 4294967296 →
    let body := le32 period ++ [mode]
    TakenAsNew ⟨seq, 0x04, body⟩ s →
    ((period < 250 ∨ 1000000 < period ∨ 1 < mode.toNat) →
      exec (.cycleSet seq body) s = AnsweredFrom s ⟨seq, 0x04, body⟩ [0x11]) ∧
    (250 ≤ period → period ≤ 1000000 → mode.toNat ≤ 1 →
      (s.engine.state ≠ .stopped → exec (.cycleSet seq body) s = AnsweredFrom s ⟨seq, 0x04, body⟩ [0x20]) ∧
      (s.engine.state = .stopped →
        (∀ x, s.plans.activeTable.chain.find? (fun y => decide (period ≤ y.2.offset)) = some x →
          exec (.cycleSet seq body) s = AnsweredFrom s ⟨seq, 0x04, body⟩ [0x23, 0x03, ixByte x.1]) ∧
        ((∀ x ∈ s.plans.activeTable.chain, x.2.offset < period) →
          exec (.cycleSet seq body) s
            = AnsweredFrom
                { s with engine := { s.engine with period := period, mode := if mode = 0 then .free else .sync } }
                ⟨seq, 0x04, body⟩ [0x00])))

/-- START: STATE outside STOPPED; in FREE mode cycle 0 begins now, walked from the active plan; in SYNC mode the engine is ARMED with the
cycle number 0 (R31, R48). -/
def Obligations.StartOutcomes : Prop :=
  ∀ (seq : Byte) (s : State), TakenAsNew ⟨seq, 0x05, []⟩ s →
    (s.engine.state ≠ .stopped → exec (.start seq []) s = AnsweredFrom s ⟨seq, 0x05, []⟩ [0x20]) ∧
    (s.engine.state = .stopped → s.engine.mode = .free →
      exec (.start seq []) s
        = AnsweredFrom
            { s with
              engine := { s.engine with
                state := .running, cycle := 0, cycleStart := some s.now, nextBoundary := some (s.now + s.engine.period) }
              walk := { pointer := s.plans.activeTable.head, table := some s.plans.active, cycle := some 0,
                        remaining := s.plans.activeTable.chain.length } }
            ⟨seq, 0x05, []⟩ [0x00, 0x02]) ∧
    (s.engine.state = .stopped → s.engine.mode = .sync →
      exec (.start seq []) s
        = AnsweredFrom { s with engine := { s.engine with state := .armed, cycle := 0 } } ⟨seq, 0x05, []⟩ [0x00, 0x01])

/-- STOP: in STOPPED nothing changes; AT_BOUNDARY in RUNNING sets stop pending and nothing else; STOP NOW in RUNNING and either STOP in
ARMED stop the engine: a pending swap is performed, the walk ends, windows close with their debounces discarded, STOP NOW cuts bursts to
the idle value, and PLAN_SWAPPED (for a swap) and CYCLE_STOPPED are raised; another *when* is BAD_VALUE (R19, R41, R43, R61, R102, R115).
A free transmitter is asked at the end of the command, and the notices of an earlier command of the instant stand before these: the
model's choice (logs 39, 42 and 44). -/
def Obligations.StopOutcomes : Prop :=
  ∀ (seq when : Byte) (s : State), TakenAsNew ⟨seq, 0x06, [when]⟩ s →
    (1 < when.toNat → exec (.stop seq [when]) s = AnsweredFrom s ⟨seq, 0x06, [when]⟩ [0x11]) ∧
    (when.toNat ≤ 1 → s.engine.state = .stopped →
      exec (.stop seq [when]) s
        = AnsweredFrom s ⟨seq, 0x06, [when]⟩ ([0x00, 0x00, flagByte s.engine.stopPending] ++ le32 s.engine.cycle.toNat)) ∧
    (when = 0 → s.engine.state = .running →
      exec (.stop seq [when]) s
        = AnsweredFrom { s with engine := { s.engine with stopPending := true } } ⟨seq, 0x06, [when]⟩
            ([0x00, 0x02, 0x01] ++ le32 s.engine.cycle.toNat)) ∧
    ((when = 1 ∧ s.engine.state = .running) ∨ (when.toNat ≤ 1 ∧ s.engine.state = .armed) →
      ∃ t, exec (.stop seq [when]) s = .next t ∧
        RaisedFrom
          (({ s with
              plans := if s.plans.swapPending then { s.plans with active := s.plans.active.other, swapPending := false }
                else s.plans
              engine := { s.engine with state := .stopped, stopPending := false, flywheel := false, cycleStart := none,
                                        nextBoundary := none }
              walk := Walk.absent
              chans := s.chans.mapRecords fun c => match c with
                | .burst c => .burst (if when = 1 ∧ c.burst.isSome then { c with value := c.cfg.idle, burst := none } else c)
                | .edge c => .edge (if c.window = Window.opened then
                    { c with window := .closed, debounces := Vector.replicate 8 none } else c)
                | c => c }).replied
            ⟨seq, 0x06, [when]⟩ ([0x00, 0x00, 0x00] ++ le32 s.engine.cycle.toNat))
          t
          ((if s.plans.swapPending then
              [{ kind := .planSwapped, subject := some s.plans.active.other.code, detail := 0, cycle := s.engine.cycle }]
            else []) ++
            [{ kind := .cycleStopped, subject := none, detail := when.toNat, cycle := s.engine.cycle }]))

/-- The four kinds of boundary while RUNNING with stop pending clear begin a new cycle: the cycle number grows by one, the cycle starts
now, the flywheel flag is as its source leaves it, a pending swap is performed, the walk begins at the head of the plan then active, a
debounce begun at this very instant in the cycle that ends takes the new cycle number and cycle time 0 (R121; log 14), queues and records
stay, and SYNC_LOST or SYNC_REGAINED, then PLAN_SWAPPED and WALK_CUT, are raised (R18, R33, R34, R36 to R39, R45, R48, R57). Notices of
steps fired at this instant and still held are not part of the statement; the model takes them first, its own choice (log 30).
A free transmitter is asked at the end of the command, and the notices of an earlier command of the instant stand before these: the
model's choice (logs 39, 42 and 44), as is that those of a step at offset 0 of the new cycle stand behind them (log 41). -/
def Obligations.BoundaryBeginsCycle : Prop :=
  ∀ (c : Instr) (flywheel : Bool) (source : List Raised) (start : Nat) (s : State),
    let free := s.engine.mode = .free ∧ s.engine.nextBoundary = some s.now ∧ flywheel = s.engine.flywheel
    let syncMode := s.engine.mode = .sync
    let cycle := s.engine.cycle + 1
    let plans := if s.plans.swapPending then { s.plans with active := s.plans.active.other, swapPending := false } else s.plans
    s.hwReset = none → s.engine.state = .running → s.engine.stopPending = false → walkOnPlan s →
    s.engine.cycleStart = some start →
    ((c = .periodBoundary ∧ free ∧ source = []) ∨
      (c = .syncDeadline ∧ syncMode ∧ s.engine.flywheel = false ∧ s.engine.nextBoundary = some s.now ∧ flywheel = true ∧
        source = [{ kind := .syncLost, subject := none, detail := 0, cycle := cycle }]) ∨
      (c = .flywheelBoundary ∧ syncMode ∧ s.engine.flywheel = true ∧ s.engine.nextBoundary = some s.now ∧ flywheel = true ∧
        source = []) ∨
      (c = .syncRisingEdge ∧ syncMode ∧ s.pins.sync = .low ∧ s.engine.flywheel = false ∧ flywheel = false ∧ source = []) ∨
      (c = .syncRisingEdge ∧ syncMode ∧ s.pins.sync = .low ∧ s.engine.flywheel = true ∧ flywheel = false ∧
        source = [{ kind := .syncRegained, subject := none, detail := 0, cycle := cycle }])) →
    ∃ t, exec c s = .next t ∧
      RaisedFrom
        { s with
          notices := source.foldl (fun n r => n.take r) s.notices
          pins := { s.pins with sync := if c = .syncRisingEdge then .high else s.pins.sync }
          plans := plans
          engine := { s.engine with
            cycle := cycle, cycleStart := some s.now, flywheel := flywheel
            nextBoundary := some (match s.engine.mode with
              | .free => s.now + s.engine.period
              | .sync => s.now + s.engine.period + if flywheel then 0 else s.engine.period / 8) }
          walk := { pointer := plans.activeTable.head, table := some plans.active, cycle := some cycle,
                    remaining := plans.activeTable.chain.length }
          chans := if start = s.now then s.chans else s.chans.mapRecords fun c => match c with
            | .edge c => .edge { c with debounces := c.debounces.map fun d => d.map fun d =>
                if d.began = s.now then { d with cycle := cycle, offset := 0 } else d }
            | c => c }
        t
        ((if s.plans.swapPending then
            [{ kind := .planSwapped, subject := some plans.active.code, detail := 0, cycle := cycle }]
          else []) ++
          (if s.walk.pointer.isSome then
            [{ kind := .walkCut, subject := none, detail := s.walk.remaining, cycle := s.walkCycle }]
          else []))

/-- A boundary of any kind with stop pending set begins no cycle: the engine is STOPPED with its cycle number kept, a pending swap is
performed, the walk ends, windows close with their debounces discarded, bursts play on, and PLAN_SWAPPED (for a swap), CYCLE_STOPPED with
detail 0 and WALK_CUT (for a walk not DONE) are raised (R19, R42, R43, R57, R61, R103, R115).
A free transmitter is asked at the end of the command, and the notices of an earlier command of the instant stand before these: the
model's choice (logs 39, 42 and 44). -/
def Obligations.BoundaryWithStopPending : Prop :=
  ∀ (c : Instr) (s : State),
    let plans := if s.plans.swapPending then { s.plans with active := s.plans.active.other, swapPending := false } else s.plans
    s.hwReset = none → s.engine.state = .running → s.engine.stopPending = true →
    ((c = .periodBoundary ∧ s.engine.mode = .free ∧ s.engine.nextBoundary = some s.now) ∨
      (c = .syncDeadline ∧ s.engine.mode = .sync ∧ s.engine.flywheel = false ∧ s.engine.nextBoundary = some s.now) ∨
      (c = .flywheelBoundary ∧ s.engine.mode = .sync ∧ s.engine.flywheel = true ∧ s.engine.nextBoundary = some s.now) ∨
      (c = .syncRisingEdge ∧ s.engine.mode = .sync ∧ s.pins.sync = .low)) →
    ∃ t, exec c s = .next t ∧
      RaisedFrom
        { s with
          pins := { s.pins with sync := if c = .syncRisingEdge then .high else s.pins.sync }
          plans := plans
          engine := { s.engine with state := .stopped, stopPending := false, flywheel := false, cycleStart := none,
                                    nextBoundary := none }
          walk := Walk.absent
          chans := s.chans.mapRecords fun c => match c with
            | .edge c => .edge (if c.window = .opened then
                { c with window := .closed, debounces := Vector.replicate 8 none } else c)
            | c => c }
        t
        ((if s.plans.swapPending then
            [{ kind := .planSwapped, subject := some plans.active.code, detail := 0, cycle := s.engine.cycle }]
          else []) ++
          [{ kind := .cycleStopped, subject := none, detail := 0, cycle := s.engine.cycle }] ++
          (if s.walk.pointer.isSome then
            [{ kind := .walkCut, subject := none, detail := s.walk.remaining, cycle := s.walkCycle }]
          else []))

/-- The first rising SYNC edge in ARMED begins cycle 0 with its number as it stands and a walk of the plan then active (R32, R48). A rising
edge in FREE mode or in STOPPED changes the sampled level alone, apart from the arbiter; a sample that finds SYNC high again, or low,
changes at most the sampled level (R35).
A free transmitter is asked at the end of the command, and the notices of an earlier command of the instant stand before these: the
model's choice (logs 39, 42 and 44), as is that those of a step at offset 0 of the new cycle stand behind them (log 41). -/
def Obligations.SyncSamples : Prop :=
  ∀ s : State, s.hwReset = none →
    let plans := if s.plans.swapPending then { s.plans with active := s.plans.active.other, swapPending := false } else s.plans
    (s.pins.sync = .low → s.engine.mode = .sync → s.engine.state = .armed → s.walk.pointer = none →
      ∃ t, exec .syncRisingEdge s = .next t ∧
        RaisedFrom
          { s with
            pins := { s.pins with sync := .high }
            plans := plans
            engine := { s.engine with
              state := .running, cycleStart := some s.now
              nextBoundary := some (s.now + s.engine.period + if s.engine.flywheel then 0 else s.engine.period / 8) }
            walk := { pointer := plans.activeTable.head, table := some plans.active, cycle := some s.engine.cycle,
                      remaining := plans.activeTable.chain.length } }
          t
          (if s.plans.swapPending then
            [{ kind := .planSwapped, subject := some plans.active.code, detail := 0, cycle := s.engine.cycle }]
          else [])) ∧
    (s.pins.sync = .low → (s.engine.mode = .free ∨ s.engine.state = .stopped) →
      exec .syncRisingEdge s = .next (arbitrate { s with pins := { s.pins with sync := .high } })) ∧
    (s.pins.sync = .high → exec .syncRisingEdge s = .next s) ∧
    exec .syncFallingEdge s = .next { s with pins := { s.pins with sync := .low } }

/-- A command whose occasion is not there is without effect (the model's choice): a request that the Dispatcher cannot take at this instant
(log 6), and an event of the time base at an instant at which its condition does not hold (log 1). -/
def Obligations.CommandWithoutOccasion : Prop :=
  ∀ (c : Instr) (s : State),
    ((∃ f, requestFrame? c = some f ∧ canTake f s = false) ∨
      (c = .periodBoundary ∧ periodDue s = false) ∨
      (c = .syncDeadline ∧ deadlineDue s = false) ∨
      (c = .flywheelBoundary ∧ flywheelDue s = false) ∨
      (c = .stepFire ∧ stepDue s = false ∧ ∀ p, stepAtPointer s ≠ some (p, none)) ∨
      (∃ ch, c = .burstOnPhaseEnd ch ∧ phaseDue .on ch s = false) ∨
      (∃ ch, c = .burstOffPhaseEnd ch ∧ phaseDue .off ch s = false) ∨
      (∃ ch, c = .debounceConfirmed ch ∧ debounceDue ch s = false) ∨
      (c = .silenceTimerExpiry ∧ silenceDue s = false) ∨ (c = .retransmitTimerExpiry ∧ retransmitDue s = false) ∨
      (c = .gapLimit ∧ gapDue s = false) ∨ (c = .replySent ∧ frameDue .reply s = false) ∨
      (c = .noticeFrameSent ∧ frameDue .notice s = false)) →
    exec c s = .next s

/-! ### The Step Walker (chapter 3) with outputs and inputs -/

/-- An EMIT on a LEVEL_OUT channel: while SAFE is set it is suppressed (R98); with a record it pops the oldest, drives it and judges the
low-water mark (R89, R97); without one it starves under its policy, with STARVED on entry (R90, R91). No other channel changes. While
another step is due at this instant the notice is held (the model's choice, log 10). The reply to a QUEUE_PUT that the channel took at this
same instant then reports the fill the EMIT leaves (R88; log 16): `reportFill` puts it in the third byte of the reply, wherever that is.
A free transmitter is asked at the end of the command, and the notices of an earlier command of the instant stand before these: the
model's choice (logs 39 and 42). -/
def Obligations.EmitOnLevelChannel : Prop :=
  (∀ (p : SlotIx) (st : Step) (ch : ChanIx) (c : LevelChan) (s : State),
    FiresNow p st s → st.action = .emit ch → s.chan ch = .level c →
    (s.safe.safe = true → ∃ t, exec .stepFire s = .next t ∧ FiredFrom (s.fired st s.chans) t []) ∧
    (s.safe.safe = false →
      (∀ v q, c.queue = v :: q →
        ∃ t, exec .stepFire s = .next t ∧
          FiredFrom (reportFill ch q.length
            (s.fired st (s.setChan ch (.level { c with queue := q, value := v, state := .driving })).chans)) t
            (if c.cfg.mark ≠ 0 ∧ q.length = c.cfg.mark then
              [{ kind := .refill, subject := some (ixByte ch), detail := q.length, cycle := s.walkCycle }]
            else [])) ∧
      (c.queue = [] →
        ∃ t, exec .stepFire s = .next t ∧
          FiredFrom (reportFill ch 0
            (s.fired st (s.setChan ch (.level { c with
              value := if c.cfg.starve = .idle then c.cfg.idle else c.value, state := .starved })).chans)) t
            (if c.state = .starved then []
            else [{ kind := .starved, subject := some (ixByte ch), detail := p.val, cycle := s.walkCycle }])))) ∧
  (∀ (ch : ChanIx) (fill : Nat) (u : State),
    (u.putAt ≠ some (u.now, ch) → reportFill ch fill u = u) ∧
    (∀ (f : Frame) (seq kind status taken old : Byte), u.putAt = some (u.now, ch) →
      let was : Frame := ⟨seq, kind, [status, taken, old]⟩
      let is : Frame := ⟨seq, kind, [status, taken, byteOf fill]⟩
      u.link.last = some (f, was) →
      (u.disp.slot = .empty → reportFill ch fill u = { u with link := { u.link with last := some (f, is) } }) ∧
      (u.disp.slot = .waiting was →
        reportFill ch fill u
          = { u with link := { u.link with last := some (f, is) }, disp := { u.disp with slot := .waiting is } }) ∧
      (∀ x, u.disp.slot = .inTransmission was → u.link.tx = some x →
        reportFill ch fill u
          = { u with
              link := { u.link with last := some (f, is), tx := some { x with bytes := is.bytes } }
              disp := { u.disp with slot := .inTransmission is } })))

/-- An EMIT on a BURST_OUT channel: while SAFE is set it is suppressed (R98); on a burst in flight it is skipped and counted (R96); with a
record it starts that burst in phase ON (R92, R93, R97); without one it starves (R90, R92). No other channel changes. While another step is
due at this instant the notice is held (the model's choice, log 10). The reply to a QUEUE_PUT that the channel took at this same instant
then reports the fill the EMIT leaves (R88; log 16).
A free transmitter is asked at the end of the command, and the notices of an earlier command of the instant stand before these: the
model's choice (logs 39 and 42). -/
def Obligations.EmitOnBurstChannel : Prop :=
  ∀ (p : SlotIx) (st : Step) (ch : ChanIx) (c : BurstChan) (s : State),
    FiresNow p st s → st.action = .emit ch → s.chan ch = .burst c →
    (s.safe.safe = true → ∃ t, exec .stepFire s = .next t ∧ FiredFrom (s.fired st s.chans) t []) ∧
    (s.safe.safe = false → c.burst.isSome = true →
      ∃ t, exec .stepFire s = .next t ∧
        FiredFrom (reportFill ch c.queue.length
          (s.fired st (s.setChan ch (.burst { c with skips := min (c.skips + 1) (max c.skips 65535) })).chans)) t
          [{ kind := .skipped, subject := some (ixByte ch), detail := p.val, cycle := s.walkCycle }]) ∧
    (∀ r q, s.safe.safe = false → c.burst = none → c.queue = r :: q →
      ∃ t, exec .stepFire s = .next t ∧
        FiredFrom (reportFill ch q.length
          (s.fired st (s.setChan ch (.burst { c with
            queue := q, value := r.active, state := .driving
            burst := some { played := r, remaining := r.count, phase := .on, phaseEnd := s.now + r.onTime } })).chans)) t
          (if c.cfg.mark ≠ 0 ∧ q.length = c.cfg.mark then
            [{ kind := .refill, subject := some (ixByte ch), detail := q.length, cycle := s.walkCycle }]
          else [])) ∧
    (s.safe.safe = false → c.burst = none → c.queue = [] →
      ∃ t, exec .stepFire s = .next t ∧
        FiredFrom (reportFill ch 0
          (s.fired st (s.setChan ch (.burst { c with
            value := if c.cfg.starve = .idle then c.cfg.idle else c.value, state := .starved })).chans)) t
          (if c.state = .starved then []
          else [{ kind := .starved, subject := some (ixByte ch), detail := p.val, cycle := s.walkCycle }]))

/-- A SAMPLE appends a record of the walk cycle number, the slot and the levels at the lines: below the depth it joins the queue and DATA
is raised at the high-water mark; at the depth the full policy loses the new or the oldest record, the lost count grows and LOST is raised
(R54, R109 to R112). No other channel changes. While another step is due at this instant the notice is held (the model's choice, log 10).
A free transmitter is asked at the end of the command, and the notices of an earlier command of the instant stand before these: the
model's choice (logs 39 and 42). -/
def Obligations.SampleFires : Prop :=
  ∀ (p : SlotIx) (st : Step) (ch : ChanIx) (c : SampleChan) (s : State),
    FiresNow p st s → st.action = .sample ch → s.chan ch = .sample c →
    let r : SampleRec := { cycle := s.walkCycle, slot := p, value := c.cfg.run.read s.pins.lines }
    let lost := min (c.lost + 1) (max c.lost 65535)
    (c.queue.length < c.cfg.depth →
      ∃ t, exec .stepFire s = .next t ∧
        FiredFrom (s.fired st (s.setChan ch (.sample { c with queue := c.queue ++ [r] })).chans) t
          (if c.queue.length + 1 = c.cfg.mark then
            [{ kind := .data, subject := some (ixByte ch), detail := c.queue.length + 1, cycle := s.walkCycle }]
          else [])) ∧
    (c.cfg.depth ≤ c.queue.length →
      ∃ t, exec .stepFire s = .next t ∧
        FiredFrom
          (s.fired st (s.setChan ch (.sample { c with
            queue := if c.cfg.full = .keepOld then c.queue else c.queue.tail ++ [r], lost := lost })).chans) t
          [{ kind := .lost, subject := some (ixByte ch), detail := lost, cycle := s.walkCycle }])

/-- An OPEN on a CLOSED window opens it and takes the settled levels from the lines, and on an OPEN one changes nothing (R113, R114); a
CLOSE on an OPEN window closes it and discards every debounce, and on a CLOSED one changes nothing (R113, R115). No other channel changes and
no notice is raised (R55). A MARK raises MARK with its tag, its slot and the walk cycle number, and no channel changes (R56); while another
step is due at this instant its notice is held (the model's choice, log 10).
A free transmitter is asked at the end of the command, and the notices of an earlier command of the instant stand before these: the
model's choice (logs 39 and 42). -/
def Obligations.WindowAndMarkStepsFire : Prop :=
  ∀ (p : SlotIx) (st : Step) (s : State), FiresNow p st s →
    (∀ (ch : ChanIx) (c : EdgeChan), s.chan ch = .edge c → st.action = .openWindow ch →
      ∃ t, exec .stepFire s = .next t ∧
        FiredFrom
          (s.fired st (s.setChan ch (.edge (if c.window = .opened then c
            else { c with window := .opened, settled := c.cfg.run.read s.pins.lines }))).chans) t []) ∧
    (∀ (ch : ChanIx) (c : EdgeChan), s.chan ch = .edge c → st.action = .closeWindow ch →
      ∃ t, exec .stepFire s = .next t ∧
        FiredFrom
          (s.fired st (s.setChan ch (.edge (if c.window = .opened then
            { c with window := .closed, debounces := Vector.replicate 8 none } else c))).chans) t []) ∧
    (st.action = .mark →
      ∃ t, exec .stepFire s = .next t ∧
        FiredFrom (s.fired st s.chans) t
          [{ kind := .mark, subject := some st.tag, detail := p.val, cycle := s.walkCycle }])

/-! ### Channels (chapter 4) -/

/-- A CHAN_SET with its fields in range, on a channel that is not referenced, whose lines no other channel owns and whose depth there are
places for, installs the configuration; the reply carries the channel and the free count (R70, R72, R73). Fields the kind does not hold are
ignored. -/
def Obligations.ChanSetInstalls : Prop :=
  ∀ (seq : Byte) (ch : ChanIx) (x y z : Byte) (setup : Setup) (s : State), setup.fits = true →
    TakenAsNew ⟨seq, 0x10, setupBody ch x y z setup⟩ s →
    s.plans.referenced ch = false →
    (∀ n : Fin 32, setup.run.covers n.val = true → s.chans.lineMap.get n = none ∨ s.chans.lineMap.get n = some ch) →
    setup.depth ≤ s.chans.freeCount + (s.chan ch).places →
    exec (.chanSet seq (setupBody ch x y z setup)) s
      = AnsweredFrom { s with chans := s.chans.replace ch (setup.install s.safe.safe s.pins.lines) }
          ⟨seq, 0x10, setupBody ch x y z setup⟩
          ([0x00, ixByte ch] ++ le16 (s.chans.freeCount + (s.chan ch).places - setup.depth))

/-- A CHAN_SET with its fields in range is refused with IN_USE for a referenced channel, else with LINE_TAKEN and the lowest line of the run
that another channel owns with its owner, else with NO_SPACE and the places available; a refused CHAN_SET changes nothing else (R70, R71). -/
def Obligations.ChanSetRefusals : Prop :=
  ∀ (seq : Byte) (ch : ChanIx) (x y z : Byte) (setup : Setup) (s : State), setup.fits = true →
    TakenAsNew ⟨seq, 0x10, setupBody ch x y z setup⟩ s →
    (s.plans.referenced ch = true →
      exec (.chanSet seq (setupBody ch x y z setup)) s
        = AnsweredFrom s ⟨seq, 0x10, setupBody ch x y z setup⟩ [0x32, ixByte ch]) ∧
    (s.plans.referenced ch = false →
      (∀ (n : Fin 32) (o : ChanIx), setup.run.covers n.val = true → s.chans.lineMap.get n = some o → o ≠ ch →
        (∀ m : Fin 32, m < n → setup.run.covers m.val = true →
          s.chans.lineMap.get m = none ∨ s.chans.lineMap.get m = some ch) →
        exec (.chanSet seq (setupBody ch x y z setup)) s
          = AnsweredFrom s ⟨seq, 0x10, setupBody ch x y z setup⟩
              [0x33, byteOf (n.val / 8), byteOf (n.val % 8), ixByte o]) ∧
      ((∀ n : Fin 32, setup.run.covers n.val = true → s.chans.lineMap.get n = none ∨ s.chans.lineMap.get n = some ch) →
        s.chans.freeCount + (s.chan ch).places < setup.depth →
        exec (.chanSet seq (setupBody ch x y z setup)) s
          = AnsweredFrom s ⟨seq, 0x10, setupBody ch x y z setup⟩
              ([0x34] ++ le16 (s.chans.freeCount + (s.chan ch).places))))

/-- A CHAN_SET with a field out of the range that its kind gives it is answered BAD_VALUE and changes nothing else (R70). -/
def Obligations.ChanSetRangeRefused : Prop :=
  ∀ (seq ch kind port first width depth mark idle safe starve full select debounce : Byte) (s : State),
    let body := [ch, kind, port, first, width, depth, mark, idle, safe, starve, full, select, debounce]
    let output := kind = 1 ∨ kind = 2
    let input := kind = 3 ∨ kind = 4
    TakenAsNew ⟨seq, 0x10, body⟩ s →
    (15 < ch.toNat ∨ kind = 0 ∨ 4 < kind.toNat ∨
      3 < port.toNat ∨ 7 < first.toNat ∨ width = 0 ∨ 8 < width.toNat ∨ 8 < first.toNat + width.toNat ∨
      depth.toNat < 4 ∨ 128 < depth.toNat ∨
      (output ∧ (depth.toNat - 1 < mark.toNat ∨ 2 ^ width.toNat - 1 < idle.toNat ∨ 2 ^ width.toNat - 1 < safe.toNat ∨
        1 < starve.toNat)) ∨
      (input ∧ (mark = 0 ∨ depth.toNat < mark.toNat ∨ 1 < full.toNat)) ∨
      (kind = 4 ∧ 2 < select.toNat)) →
    exec (.chanSet seq body) s = AnsweredFrom s ⟨seq, 0x10, body⟩ [0x11]

/-- Ending a configuration and installing a record (R65, R67, R72, R73, R76): the channel's record is the new one and no other record
changes; a line of the new run belongs to the channel, its other lines are released, every other line keeps its owner; the depth of the
old configuration goes back to the pool and that of the new one comes out of it. What CHAN_SET installs (R64, R73): an output in WAITING
with an empty queue and no burst, at its idle value, or at its safe value while SAFE is set; an input with an empty queue, nothing lost,
its window CLOSED and its settled levels read from the lines. What a line carries (R66): one that an output channel owns is driven at the
bit of the channel's current output value that its place in the run gives it, and any other floats. -/
def Obligations.InstallAndReplace : Prop :=
  (∀ (ch : ChanIx) (c : Channel) (t : ChannelTable),
    (t.replace ch c).records.get ch = c ∧
    (∀ other : ChanIx, other ≠ ch → (t.replace ch c).records.get other = t.records.get other) ∧
    (∀ n : Fin 32, (t.replace ch c).lineMap.get n =
      if c.ownsLine n = true then some ch else if t.lineMap.get n = some ch then none else t.lineMap.get n) ∧
    (t.replace ch c).freeCount = t.freeCount + (t.records.get ch).places - c.places) ∧
  (∀ (safe : Bool) (lines : BitVec 32),
    (∀ c : OutConfig, (Setup.level c).install safe lines =
      .level { cfg := c, state := .waiting, value := if safe then c.safe else c.idle, queue := [] }) ∧
    (∀ c : OutConfig, (Setup.burst c).install safe lines =
      .burst { cfg := c, state := .waiting, value := if safe then c.safe else c.idle, queue := [], burst := none, skips := 0 }) ∧
    (∀ c : InConfig, (Setup.sample c).install safe lines = .sample { cfg := c, queue := [], lost := 0 }) ∧
    (∀ (c : InConfig) (select : EdgeSelect) (debounce : Nat), ∃ settled : LineValue,
      (Setup.edge c select debounce).install safe lines =
        .edge { cfg := c, select := select, debounce := debounce, queue := [], lost := 0, window := .closed, settled := settled
                debounces := Vector.replicate 8 none, retaken := Vector.replicate 8 none } ∧
      (c.run.fits = true → ∀ i : Fin 8,
        settled.getLsbD i.val = (decide (i.val < c.run.width) && lines.getLsbD (8 * c.run.port.val + c.run.first.val + i.val))))) ∧
  (∀ (s : State) (n : Fin 32),
    let driven (r : Run) (v : LineValue) : Option Level :=
      some (if v.getLsbD (n.val - (8 * r.port.val + r.first.val)) then .high else .low)
    (s.chans.lineMap.get n = none → lineDrive s n = none) ∧
    (∀ ch : ChanIx, s.chans.lineMap.get n = some ch →
      (∀ c, s.chan ch = .level c → lineDrive s n = driven c.cfg.run c.value) ∧
      (∀ c, s.chan ch = .burst c → lineDrive s n = driven c.cfg.run c.value) ∧
      (∀ c, s.chan ch = .sample c → lineDrive s n = none) ∧
      (∀ c, s.chan ch = .edge c → lineDrive s n = none)))

/-- CHAN_RELEASE: BAD_VALUE for a number above 15, NOT_CONFIGURED for a free channel, IN_USE for a referenced one; otherwise the channel is
free, and the reply carries the free count (R76). QUEUE_FLUSH: BAD_VALUE and NOT_CONFIGURED likewise; otherwise the queue alone is emptied and
the reply carries the number of records discarded (R80). -/
def Obligations.ReleaseAndFlush : Prop :=
  ∀ (seq : Byte) (s : State),
    (∀ b : Byte, 15 < b.toNat →
      (TakenAsNew ⟨seq, 0x11, [b]⟩ s → exec (.chanRelease seq [b]) s = AnsweredFrom s ⟨seq, 0x11, [b]⟩ [0x11]) ∧
      (TakenAsNew ⟨seq, 0x16, [b]⟩ s → exec (.queueFlush seq [b]) s = AnsweredFrom s ⟨seq, 0x16, [b]⟩ [0x11])) ∧
    (∀ ch : ChanIx, s.chan ch = .free →
      (TakenAsNew ⟨seq, 0x11, [ixByte ch]⟩ s →
        exec (.chanRelease seq [ixByte ch]) s = AnsweredFrom s ⟨seq, 0x11, [ixByte ch]⟩ [0x30]) ∧
      (TakenAsNew ⟨seq, 0x16, [ixByte ch]⟩ s →
        exec (.queueFlush seq [ixByte ch]) s = AnsweredFrom s ⟨seq, 0x16, [ixByte ch]⟩ [0x30])) ∧
    (∀ ch : ChanIx, s.chan ch ≠ .free →
      (TakenAsNew ⟨seq, 0x11, [ixByte ch]⟩ s →
        (s.plans.referenced ch = true →
          exec (.chanRelease seq [ixByte ch]) s = AnsweredFrom s ⟨seq, 0x11, [ixByte ch]⟩ [0x32]) ∧
        (s.plans.referenced ch = false →
          exec (.chanRelease seq [ixByte ch]) s
            = AnsweredFrom { s with chans := s.chans.replace ch .free } ⟨seq, 0x11, [ixByte ch]⟩
                ([0x00] ++ le16 (s.chans.freeCount + (s.chan ch).places)))) ∧
      (TakenAsNew ⟨seq, 0x16, [ixByte ch]⟩ s →
        exec (.queueFlush seq [ixByte ch]) s
          = AnsweredFrom (s.setChan ch (match s.chan ch with
              | .free => .free
              | .level c => .level { c with queue := [] }
              | .burst c => .burst { c with queue := [] }
              | .sample c => .sample { c with queue := [] }
              | .edge c => .edge { c with queue := [] }))
            ⟨seq, 0x16, [ixByte ch]⟩ [0x00, byteOf (s.chan ch).fill]))

/-- CHAN_READ reports the channel in the layout of section 12.5 and, with the clear flag at 1, sets its skip or lost count to 0 and
changes nothing else; a channel above 15 or a flag above 1 is BAD_VALUE (R78, R79). A line is shown as debouncing while it has a debounce
in progress; one of time 0 is never shown (the model's reading, log 15). -/
def Obligations.ChanReadReports : Prop :=
  (∀ (c : EdgeChan) (i : Fin 8), c.debouncing.getLsbD i.val = (decide (c.debounce ≠ 0) && (c.debounces.get i).isSome)) ∧
  ∀ (seq chB flag : Byte) (s : State), TakenAsNew ⟨seq, 0x12, [chB, flag]⟩ s →
    ((15 < chB.toNat ∨ 1 < flag.toNat) →
      exec (.chanRead seq [chB, flag]) s = AnsweredFrom s ⟨seq, 0x12, [chB, flag]⟩ [0x11]) ∧
    (∀ ch : ChanIx, chB = ixByte ch → flag.toNat ≤ 1 →
      let referenced := flagByte (s.plans.referenced ch)
      let out (c : OutConfig) : List Byte :=
        [ixByte c.run.port, ixByte c.run.first, byteOf c.run.width, byteOf c.depth, byteOf c.mark, c.idle, c.safe,
          c.starve.code, 0, 0, 0]
      let inp (c : InConfig) (select debounce : Byte) : List Byte :=
        [ixByte c.run.port, ixByte c.run.first, byteOf c.run.width, byteOf c.depth, byteOf c.mark, 0, 0, 0, c.full.code,
          select, debounce]
      exec (.chanRead seq [chB, flag]) s
        = AnsweredFrom
            (if flag = 1 then
              s.setChan ch (match s.chan ch with
                | .burst c => .burst { c with skips := 0 }
                | .sample c => .sample { c with lost := 0 }
                | .edge c => .edge { c with lost := 0 }
                | c => c)
            else s)
            ⟨seq, 0x12, [chB, flag]⟩
            (match s.chan ch with
            | .free => [0x00, chB, 0x00] ++ List.replicate 27 0
            | .level c =>
              [0x00, chB, 0x01, referenced] ++ out c.cfg ++ [byteOf c.queue.length, c.state.code]
                ++ [0, 0, 0, 0, 0, 0, 0, 0, 0, 0, 0, 0] ++ [c.value]
            | .burst c =>
              [0x00, chB, 0x02, referenced] ++ out c.cfg ++ [byteOf c.queue.length, c.state.code] ++ le16 c.skips ++
                (match c.burst with
                | none => [0, 0, 0, 0, 0]
                | some b => [1, b.played.active] ++ le16 b.remaining ++ [b.phase.code])
                ++ [0, 0, 0, 0, 0] ++ [c.value]
            | .sample c =>
              [0x00, chB, 0x03, referenced] ++ inp c.cfg 0 0 ++ [byteOf c.queue.length, 0, 0, 0, 0, 0, 0, 0, 0]
                ++ le16 c.lost ++ [0, 0, 0] ++ [c.cfg.run.read s.pins.lines]
            | .edge c =>
              [0x00, chB, 0x04, referenced] ++ inp c.cfg c.select.code (byteOf c.debounce)
                ++ [byteOf c.queue.length, 0, 0, 0, 0, 0, 0, 0, 0] ++ le16 c.lost
                ++ [c.window.code, c.settled, c.debouncing] ++ [c.cfg.run.read s.pins.lines]))

/-! ### Output channels (chapter 5) -/

/-- QUEUE_PUT of 1 to 16 LEVEL records, each masked to the width: the first of them, as many as there are places, join the tail, and the
reply gives OK or PARTIAL, the number accepted and the fill; nothing else changes (R86, R87). `putAt` remembers the instant and the channel
for an EMIT of the same instant (R88); it is the model's own field (log 16). -/
def Obligations.QueuePutLevels : Prop :=
  ∀ (seq : Byte) (ch : ChanIx) (c : LevelChan) (values : List Byte) (s : State),
    1 ≤ values.length → values.length ≤ 16 → s.chan ch = .level c →
    TakenAsNew ⟨seq, 0x14, ixByte ch :: values⟩ s →
    let k := min values.length (c.cfg.depth - c.queue.length)
    exec (.queuePut seq (ixByte ch :: values)) s
      = AnsweredFrom
          { s.setChan ch (.level { c with
              queue := c.queue ++ (values.take k).map fun v => v &&& byteOf (2 ^ c.cfg.run.width - 1) })
            with putAt := some (s.now, ch) }
          ⟨seq, 0x14, ixByte ch :: values⟩
          [if k = values.length then 0x00 else 0x01, byteOf k, byteOf (c.queue.length + k)]

/-- QUEUE_PUT of 1 to 16 BURST records (R85 to R87), as for LEVEL records, `putAt` (log 16) included; a number of 0 in any record is
BAD_VALUE. -/
def Obligations.QueuePutBursts : Prop :=
  ∀ (seq : Byte) (ch : ChanIx) (c : BurstChan) (rs : List BurstRec) (s : State),
    1 ≤ rs.length → rs.length ≤ 16 → s.chan ch = .burst c →
    let body := ixByte ch :: rs.flatMap BurstRec.bytes
    TakenAsNew ⟨seq, 0x14, body⟩ s →
    let k := min rs.length (c.cfg.depth - c.queue.length)
    ((∀ r ∈ rs, r.fits = true) →
      exec (.queuePut seq body) s
        = AnsweredFrom
            { s.setChan ch (.burst { c with
                queue := c.queue ++ (rs.take k).map fun r =>
                  { r with active := r.active &&& byteOf (2 ^ c.cfg.run.width - 1) } })
              with putAt := some (s.now, ch) }
            ⟨seq, 0x14, body⟩
            [if k = rs.length then 0x00 else 0x01, byteOf k, byteOf (c.queue.length + k)]) ∧
    ((∃ r ∈ rs, r.count = 0 ∨ r.onTime = 0 ∨ r.offTime = 0) →
      exec (.queuePut seq body) s = AnsweredFrom s ⟨seq, 0x14, body⟩ [0x11])

/-- A QUEUE_PUT of a length the common check allows is refused with BAD_VALUE for a channel above 15, NOT_CONFIGURED for a free channel,
KIND for an input channel, BAD_LENGTH for more than 16 LEVEL records and for a body that is not a whole number of BURST records; it then
changes nothing else (R86). -/
def Obligations.QueuePutRefusals : Prop :=
  ∀ (seq chB : Byte) (rest : List Byte) (s : State), 1 ≤ rest.length → rest.length ≤ 112 →
    TakenAsNew ⟨seq, 0x14, chB :: rest⟩ s →
    let refusedWith (status : Byte) : Prop :=
      exec (.queuePut seq (chB :: rest)) s = AnsweredFrom s ⟨seq, 0x14, chB :: rest⟩ [status]
    (15 < chB.toNat → refusedWith 0x11) ∧
    (∀ ch : ChanIx, chB = ixByte ch →
      (s.chan ch = .free → refusedWith 0x30) ∧
      (∀ c, s.chan ch = .sample c → refusedWith 0x31) ∧
      (∀ c, s.chan ch = .edge c → refusedWith 0x31) ∧
      (∀ c, s.chan ch = .level c → 16 < rest.length → refusedWith 0x10) ∧
      (∀ c, s.chan ch = .burst c → rest.length % 7 ≠ 0 → refusedWith 0x10))

/-- The end of an ON phase puts the lines at the idle value and begins the OFF phase; the end of an OFF phase with pulses to come puts
them at the active value with one pulse less, and with none to come ends the burst at the idle value. Nothing else changes (R93). -/
def Obligations.BurstPhaseEnds : Prop :=
  ∀ (ch : ChanIx) (c : BurstChan) (b : Burst) (s : State), s.hwReset = none → s.chan ch = .burst c → c.burst = some b →
    b.phaseEnd = s.now →
    (b.phase = .on →
      exec (.burstOnPhaseEnd ch) s = .next (s.setChan ch (.burst { c with
        value := c.cfg.idle
        burst := some { b with phase := .off, phaseEnd := s.now + b.played.offTime } }))) ∧
    (b.phase = .off → 2 ≤ b.remaining →
      exec (.burstOffPhaseEnd ch) s = .next (s.setChan ch (.burst { c with
        value := b.played.active
        burst := some { b with phase := .on, remaining := b.remaining - 1, phaseEnd := s.now + b.played.onTime } }))) ∧
    (b.phase = .off → b.remaining ≤ 1 →
      exec (.burstOffPhaseEnd ch) s = .next (s.setChan ch (.burst { c with value := c.cfg.idle, burst := none })))

/-! ### Input channels (chapter 6) -/

/-- CHAN_EDGE on an EDGE_IN channel sets its edge select and debounce time, discards every debounce and takes the settled levels from the
lines, which the reply carries; it is BAD_VALUE for a channel above 15 or an edge select above 2, NOT_CONFIGURED for a free channel and KIND
for another (R122). `retaken` remembers which lines had a debounce, for a sample of the same instant (R123); it is the model's own field
(log 32). That such a sample does not change the reply is the model's choice (log 35). -/
def Obligations.ChanEdgeOutcomes : Prop :=
  ∀ (seq chB sel time : Byte) (s : State), TakenAsNew ⟨seq, 0x13, [chB, sel, time]⟩ s →
    let f : Frame := ⟨seq, 0x13, [chB, sel, time]⟩
    ((15 < chB.toNat ∨ 2 < sel.toNat) → exec (.chanEdge seq [chB, sel, time]) s = AnsweredFrom s f [0x11]) ∧
    (∀ (ch : ChanIx) (select : EdgeSelect), chB = ixByte ch → sel = select.code →
      (s.chan ch = .free → exec (.chanEdge seq [chB, sel, time]) s = AnsweredFrom s f [0x30]) ∧
      (∀ c, s.chan ch = .level c → exec (.chanEdge seq [chB, sel, time]) s = AnsweredFrom s f [0x31]) ∧
      (∀ c, s.chan ch = .burst c → exec (.chanEdge seq [chB, sel, time]) s = AnsweredFrom s f [0x31]) ∧
      (∀ c, s.chan ch = .sample c → exec (.chanEdge seq [chB, sel, time]) s = AnsweredFrom s f [0x31]) ∧
      (∀ c, s.chan ch = .edge c →
        exec (.chanEdge seq [chB, sel, time]) s
          = AnsweredFrom
              (s.setChan ch (.edge { c with
                select := select, debounce := time.toNat, debounces := Vector.replicate 8 none
                settled := c.cfg.run.read s.pins.lines
                retaken := c.debounces.map fun d => d.map fun _ => s.now }))
              f [0x00, chB, c.cfg.run.read s.pins.lines]))

/-- QUEUE_TAKE of 1 to 16 records on an input channel removes the oldest of them, as many as there are, and sends them oldest first with
the fill that remains; it is BAD_VALUE for a channel above 15 or a count outside 1..16, NOT_CONFIGURED for a free channel and KIND for an
output (R124). -/
def Obligations.QueueTakeOutcomes : Prop :=
  ∀ (seq chB count : Byte) (s : State), TakenAsNew ⟨seq, 0x15, [chB, count]⟩ s →
    let f : Frame := ⟨seq, 0x15, [chB, count]⟩
    let n := count.toNat
    ((15 < chB.toNat ∨ n < 1 ∨ 16 < n) → exec (.queueTake seq [chB, count]) s = AnsweredFrom s f [0x11]) ∧
    (∀ ch : ChanIx, chB = ixByte ch → 1 ≤ n → n ≤ 16 →
      (s.chan ch = .free → exec (.queueTake seq [chB, count]) s = AnsweredFrom s f [0x30]) ∧
      (∀ c, s.chan ch = .level c → exec (.queueTake seq [chB, count]) s = AnsweredFrom s f [0x31]) ∧
      (∀ c, s.chan ch = .burst c → exec (.queueTake seq [chB, count]) s = AnsweredFrom s f [0x31]) ∧
      (∀ c, s.chan ch = .sample c →
        exec (.queueTake seq [chB, count]) s
          = AnsweredFrom (s.setChan ch (.sample { c with queue := c.queue.drop n })) f
              ([0x00, byteOf (min n c.queue.length), byteOf (c.queue.length - n)]
                ++ (c.queue.take n).flatMap fun r => le32 r.cycle.toNat ++ [ixByte r.slot, r.value])) ∧
      (∀ c, s.chan ch = .edge c →
        exec (.queueTake seq [chB, count]) s
          = AnsweredFrom (s.setChan ch (.edge { c with queue := c.queue.drop n })) f
              ([0x00, byteOf (min n c.queue.length), byteOf (c.queue.length - n)]
                ++ (c.queue.take n).flatMap fun r =>
                  le32 r.cycle.toNat ++ le32 r.offset ++ [ixByte r.line, r.direction.code])))

/-- A sample of the field lines (R117, R118). The levels become the present ones, and a channel that is no EDGE_IN channel with its window
OPEN keeps its record. On one, a line of the run that is back at its settled level has no debounce, and one that is away from it and has none
begins one, with the new level, stamped with this instant; but a line whose debounce a CHAN_EDGE of this instant discarded is settled at the
level it shows (R123; log 32), also across a CLOSE and an OPEN between the two, the model's choice (log 38). Queue, lost count, edge select and configuration stay, and no notice is raised: with a debounce time of 0 the
debounce is confirmed by DEBOUNCE_CONFIRMED of the same instant (the model's reading, log 15). That the command carries the 32 levels is the model's choice
(log 12). -/
def Obligations.EdgeLineSamples : Prop :=
  ∀ (levels : BitVec 32) (s : State), s.hwReset = none →
    ∃ records : Vector Channel 16,
      exec (.edgeLineChange levels) s = .next { s with
        pins := { s.pins with lines := levels }, chans := { s.chans with records := records } } ∧
      (∀ ch : ChanIx, (s.chan ch).windowOpen = false → records.get ch = s.chan ch) ∧
      (∀ (ch : ChanIx) (c : EdgeChan), s.chan ch = .edge c → c.window = .opened →
        let value := c.cfg.run.read levels
        let moved (i : Fin 8) : Prop := i.val < c.cfg.run.width ∧ levelOf value i ≠ levelOf c.settled i
        ∃ settled : LineValue,
          records.get ch = .edge { c with
            settled := settled
            debounces := Vector.ofFn fun i =>
              if c.cfg.run.width ≤ i.val then c.debounces.get i
              else if levelOf value i = levelOf c.settled i then none
              else if (c.debounces.get i).isSome ∨ c.retaken.get i = some s.now then c.debounces.get i
              else some { began := s.now, cycle := s.engine.cycle, offset := s.cycleTime.getD 0, level := levelOf value i } } ∧
          ∀ i : Fin 8, levelOf settled i =
            if moved i ∧ c.debounces.get i = none ∧ c.retaken.get i = some s.now then levelOf value i else levelOf c.settled i)

/-- Confirmation of the debounces of a channel that are due (R119, R120), in ascending order of lines: each is over, its line is settled at
its new level, and if the edge select takes the direction an EDGE record with the stamp of the change joins the queue under the full policy,
with DATA or LOST raised as R110 and R111 say. No other channel changes. A debounce of time 0 is confirmed once no boundary, stop or step of
the instant is to come, and nothing happens while one is: a boundary or step that is due, a STOP NOW that waits for the reply that ends
now, or a rising SYNC edge, a STOP NOW or the characters of one among the commands that wait (R115, R121; the model's choice, log 15). That
the command names one channel is the model's choice too (log 13). Nothing happens either while a sample of the instant waits that finds a
due line of the channel back at its settled level (R117, R118; log 13). No other event of the instant comes between two lines due together
(log 37), a free transmitter is asked at the end of the command (log 39), and the notices of an earlier command of the instant stand before
these (log 42): the model's choice. -/
def Obligations.DebounceConfirms : Prop :=
  ∀ (ch : ChanIx) (c : EdgeChan) (s : State), s.hwReset = none → s.chan ch = .edge c → c.window = .opened →
    let ending : Prop :=
      boundaryDue s = true ∨ stepDue s = true ∨
      (frameDue .reply s = true ∧ ∃ seq, s.link.holding = some ⟨seq, 0x06, [1]⟩) ∨
      (.syncRisingEdge ∈ s.pending ∧ s.engine.mode = .sync) ∨ (∃ seq, .stop seq [1] ∈ s.pending) ∨
      ∃ seq, ⟨seq, 0x06, [1]⟩ ∈ framesToCome s
    let value := c.cfg.run.read s.pins.lines
    let due (i : Fin 8) (d : Debounce) : Prop := d.began + c.debounce = s.now ∧ levelOf value i = d.level
    let undone : Prop := ∃ levels, .edgeLineChange levels ∈ s.pending ∧ ∃ i d,
      i.val < c.cfg.run.width ∧ c.debounces.get i = some d ∧ due i d ∧ levelOf (c.cfg.run.read levels) i ≠ d.level
    (c.debounce = 0 ∧ ending ∨ undone → exec (.debounceConfirmed ch) s = .next s) ∧
    (¬ (c.debounce = 0 ∧ ending ∨ undone) →
    let wanted (l : Level) : Prop := c.select = .both ∨ (c.select = .rise ∧ l = .high) ∨ (c.select = .fall ∧ l = .low)
    let record (i : Fin 8) (d : Debounce) : EdgeRec :=
      { cycle := d.cycle, offset := d.offset, line := i, direction := if d.level = .high then .rise else .fall }
    let notice (kind : NoticeKind) (detail : Nat) (d : Debounce) : Raised :=
      { kind := kind, subject := some (ixByte ch), detail := detail, cycle := d.cycle }
    let confirm (p : EdgeChan × List Raised) (i : Fin 8) : EdgeChan × List Raised :=
      match c.debounces.get i with
      | none => p
      | some d =>
        let e := { p.1 with settled := setLevel p.1.settled i d.level, debounces := p.1.debounces.set i.val none i.isLt }
        let lost := min (e.lost + 1) (max e.lost 65535)
        if ¬ due i d then p
        else if ¬ wanted d.level then (e, p.2)
        else if e.queue.length < c.cfg.depth then
          ({ e with queue := e.queue ++ [record i d] },
            p.2 ++ if e.queue.length + 1 = c.cfg.mark then [notice .data (e.queue.length + 1) d] else [])
        else
          ({ e with queue := if c.cfg.full = .keepOld then e.queue else e.queue.tail ++ [record i d], lost := lost },
            p.2 ++ [notice .lost lost d])
    let all := ((List.finRange 8).filter fun i => decide (i.val < c.cfg.run.width)).foldl confirm (c, [])
    (∃ i d, i.val < c.cfg.run.width ∧ c.debounces.get i = some d ∧ due i d) →
    ∃ t, exec (.debounceConfirmed ch) s = .next t ∧ RaisedFrom (s.setChan ch (.edge all.1)) t all.2)

/-! ### The safe state (chapter 7) -/

/-- The three sources of a cause. SAFE applies REQUEST and answers with SAFE set and the cause set; a sample that finds NSTOP low applies
STOP_LINE; the expiry of the silence timer stops it and applies SILENCE. With SAFE clear, SAFE is set with that cause alone, SAFEOUT goes
low, every output channel goes to its safe value with its burst cut, and SAFE_ENTERED is raised; with SAFE set, the cause joins the set and
nothing else changes (R99, R130 to R134).
A free transmitter is asked at the end of the command, and the notices of an earlier command of the instant stand before these: the
model's choice (logs 39 and 42). -/
def Obligations.CausesEnterSafe : Prop :=
  ∀ (s : State), s.hwReset = none →
    let entered (causes : CauseSet) (u : State) : State :=
      { u with
        safe := { u.safe with safe := true, causes := causes, safeOut := .low }
        chans := u.chans.mapRecords fun c => match c with
          | .level c => .level { c with value := c.cfg.safe }
          | .burst c => .burst { c with value := c.cfg.safe, burst := none }
          | c => c }
    let notice (subject : Byte) : Raised := { kind := .safeEntered, subject := some subject, detail := 0, cycle := s.engine.cycle }
    (∀ seq : Byte, TakenAsNew ⟨seq, 0x18, []⟩ s →
      (s.safe.safe = true →
        exec (.safe seq []) s
          = AnsweredFrom { s with safe := { s.safe with causes := { s.safe.causes with request := true } } } ⟨seq, 0x18, []⟩
              [0x00, 0x01, ({ s.safe.causes with request := true } : CauseSet).byte]) ∧
      (s.safe.safe = false → ∃ t, exec (.safe seq []) s = .next t ∧
        RaisedFrom ((entered { request := true, stopLine := false, silence := false } s).replied ⟨seq, 0x18, []⟩
          [0x00, 0x01, 0x01]) t [notice 1])) ∧
    (let low := { s with safe := { s.safe with nstop := .low } }
     (s.safe.causes.stopLine = true → exec .nstopLow s = .next low) ∧
     (s.safe.causes.stopLine = false → s.safe.safe = true →
       exec .nstopLow s
         = .next (arbitrate { low with safe := { low.safe with causes := { s.safe.causes with stopLine := true } } })) ∧
     (s.safe.causes.stopLine = false → s.safe.safe = false → ∃ t, exec .nstopLow s = .next t ∧
       RaisedFrom (entered { request := false, stopLine := true, silence := false } low) t [notice 2])) ∧
    exec .nstopHigh s = .next { s with safe := { s.safe with nstop := .high } } ∧
    (s.safe.timer = some s.now →
      let expired := { s with safe := { s.safe with timer := none } }
      (s.safe.safe = true →
        exec .silenceTimerExpiry s
          = .next (arbitrate { expired with
              safe := { expired.safe with causes := { s.safe.causes with silence := true } } })) ∧
      (s.safe.safe = false → ∃ t, exec .silenceTimerExpiry s = .next t ∧
        RaisedFrom (entered { request := false, stopLine := false, silence := true } expired) t [notice 3]))

/-- RESUME: with NSTOP low it is answered STOP_ACTIVE with SAFE and the cause set and changes nothing else; with NSTOP high SAFE and every
cause are cleared, SAFEOUT goes high, no line changes, and the reply carries the cause set as it was (R100, R136). SILENCE_SET of 0 or
10..60,000 sets the period and restarts the timer, or stops it for 0; any other value is BAD_VALUE (R134, R135). -/
def Obligations.ResumeAndSilenceSet : Prop :=
  ∀ (seq : Byte) (s : State),
    (TakenAsNew ⟨seq, 0x19, []⟩ s →
      (s.safe.nstop = .low →
        exec (.resume seq []) s
          = AnsweredFrom s ⟨seq, 0x19, []⟩ [0x40, flagByte s.safe.safe, s.safe.causes.byte]) ∧
      (s.safe.nstop = .high →
        exec (.resume seq []) s
          = AnsweredFrom
              { s with safe := { s.safe with
                  safe := false, safeOut := .high, causes := { request := false, stopLine := false, silence := false } } }
              ⟨seq, 0x19, []⟩ [0x00, 0x00, s.safe.causes.byte])) ∧
    (∀ period : Nat, period < 65536 → TakenAsNew ⟨seq, 0x1A, le16 period⟩ s →
      (period = 0 ∨ (10 ≤ period ∧ period ≤ 60000) →
        exec (.silenceSet seq (le16 period)) s
          = AnsweredFrom
              { s with safe := { s.safe with
                  period := period, timer := if period = 0 then none else some (s.now + period * 1000) } }
              ⟨seq, 0x1A, le16 period⟩ ([0x00] ++ le16 period)) ∧
      (1 ≤ period ∧ period ≤ 9 ∨ 60000 < period →
        exec (.silenceSet seq (le16 period)) s = AnsweredFrom s ⟨seq, 0x1A, le16 period⟩ [0x11]))

/-! ### Notices (chapter 8) -/

/-- A raised notice (R141, R142): it is folded into the first UNSENT entry of its kind and subject, which keeps its place; without one it
makes a new entry at the tail while there are fewer than 15 ordinary entries; otherwise it makes an OVERFLOW entry, or is counted in the
UNSENT one or, while that is SENT, in the tally. -/
def Obligations.NoticeTaken : Prop :=
  ∀ (r : Raised) (n : NoticeUnit),
    let fits (e : Notice) : Prop := e.state = .unsent ∧ e.kind = r.kind ∧ e.subject = r.subject
    (∀ front e back, n.queue = front ++ e :: back → fits e → (∀ x ∈ front, ¬ fits x) →
      n.take r = { n with queue := front
        ++ { e with count := if e.count < 255 then e.count + 1 else e.count, cycle := r.cycle, detail := r.detail } :: back }) ∧
    ((∀ x ∈ n.queue, ¬ fits x) →
      ((n.queue.filter fun e => e.kind != .overflow).length < 15 →
        n.take r = { n with queue := n.queue
          ++ [{ kind := r.kind, subject := r.subject, count := 1, cycle := r.cycle, detail := r.detail, state := .unsent }] }) ∧
      (15 ≤ (n.queue.filter fun e => e.kind != .overflow).length →
        ((∀ e ∈ n.queue, e.kind ≠ .overflow) →
          n.take r = { n with queue := n.queue
            ++ [{ kind := .overflow, subject := none, count := 1, cycle := r.cycle, detail := 0, state := .unsent }] }) ∧
        (∀ front e back, n.queue = front ++ e :: back → e.kind = .overflow →
          (∀ x ∈ front, x.kind ≠ .overflow) → (∀ x ∈ back, x.kind ≠ .overflow) →
          (e.state = .unsent →
            n.take r = { n with queue := front
              ++ { e with count := if e.count < 255 then e.count + 1 else e.count, cycle := r.cycle } :: back }) ∧
          (e.state ≠ .unsent →
            n.take r = { n with tally := if n.tally < 255 then n.tally + 1 else n.tally, tallyCycle := r.cycle }))))

/-- What the Notice Unit offers the transmitter (R144, R145, R147): the first SENT entry that is due for resend, with its number and the
timer restarted; else, with fewer than 4 SENT, the first UNSENT entry with the next number, the timer started if none was SENT; else
nothing. The frame has the number as SEQ, the kind 0xC0 and the fields of the entry in the order of section 12.7 (R184). -/
def Obligations.NoticeOffered : Prop :=
  ∀ (now : Nat) (n : NoticeUnit),
    let due (e : Notice) : Prop := ∃ num, e.state = .sent num true
    let code (k : NoticeKind) : Byte := match k with
      | .ready => 1 | .planSwapped => 2 | .cycleStopped => 3 | .syncLost => 4 | .syncRegained => 5 | .walkCut => 6 | .mark => 7
      | .starved => 8 | .refill => 9 | .skipped => 10 | .data => 11 | .lost => 12 | .safeEntered => 13 | .overflow => 14
    let frame (e : Notice) (num : Byte) : Frame :=
      { seq := num, kind := 0xC0
        body := [code e.kind, e.subject.getD 0xFF, byteOf e.count] ++ le32 e.cycle.toNat ++ le16 e.detail }
    (∀ front e back num, n.queue = front ++ e :: back → e.state = .sent num true → (∀ x ∈ front, ¬ due x) →
      n.offer now = some (frame e num,
        { n with queue := front ++ { e with state := .sent num false } :: back, timer := some (now + 100000) })) ∧
    ((∀ x ∈ n.queue, ¬ due x) →
      (4 ≤ (n.queue.filter fun e => e.state != .unsent).length → n.offer now = none) ∧
      ((∀ x ∈ n.queue, x.state ≠ .unsent) → n.offer now = none) ∧
      (∀ front e back, n.queue = front ++ e :: back → e.state = .unsent → (∀ x ∈ front, x.state ≠ .unsent) →
        (n.queue.filter fun e => e.state != .unsent).length < 4 →
        n.offer now = some (frame e n.nextNum,
          { n with
            queue := front ++ { e with state := .sent n.nextNum false } :: back
            nextNum := n.nextNum + 1
            timer := if (n.queue.filter fun e => e.state != .unsent) = [] then some (now + 100000) else n.timer })))

/-- The ACK of a number in a queue whose SENT entries stand before its UNSENT ones (R147, R149, R150): the entry of that number and those
before it go, the timer restarts if a SENT entry is left and stops otherwise, and with an OVERFLOW among those gone and a tally above 0 a new
OVERFLOW entry is made of it. A number of no SENT entry changes nothing. The tally cycle number then keeps its value, the model's reading
(log 26). -/
def Obligations.AckTaken : Prop :=
  ∀ (now : Nat) (num : Byte) (n : NoticeUnit),
    let numbered (e : Notice) : Prop := ∃ due, e.state = .sent num due
    ((∀ e ∈ n.queue, ¬ numbered e) → n.ack now num = n) ∧
    (∀ front e back, n.queue = front ++ e :: back → numbered e → (∀ x ∈ front, ¬ numbered x ∧ x.state ≠ .unsent) →
      n.ack now num =
        let gone := { n with
          queue := back, timer := if (∃ x ∈ back, x.state ≠ .unsent) then some (now + 100000) else none }
        if (∃ x ∈ front ++ [e], x.kind = .overflow) ∧ n.tally ≠ 0 then
          { gone with
            tally := 0
            queue := back ++ [{ kind := .overflow, subject := none, count := n.tally, cycle := n.tallyCycle, detail := 0,
                                state := .unsent }] }
        else gone)

/-- The expiry of the retransmit timer makes every SENT entry due and stops the timer (R148); the end of a notice frame frees the
transmitter (R167). The arbiter then chooses, a waiting reply first (R166). Where notices of steps fired at this instant are still held,
it chooses without them: the model's choice, log 36 for the end of the frame and log 10 for the timer. So is that a free transmitter takes
the oldest due entry in the expiry itself (log 40). -/
def Obligations.RetransmitAndNoticeEnd : Prop :=
  ∀ s : State, s.hwReset = none →
    (s.notices.timer = some s.now →
      exec .retransmitTimerExpiry s = .next (arbitrate { s with notices := { s.notices with
        timer := none
        queue := s.notices.queue.map fun e => match e.state with
          | .sent num _ => { e with state := .sent num true }
          | .unsent => e } })) ∧
    (∀ x, s.link.tx = some x → x.source = .notice → x.endsAt = s.now →
      (∀ r, s.disp.slot = .waiting r →
        exec .noticeFrameSent s = .next { s with
          disp := { s.disp with slot := .inTransmission r }
          link := { s.link with tx := some { bytes := r.bytes, source := .reply, endsAt := s.now + frameTime r.bytes.length } } }) ∧
      ((∀ r, s.disp.slot ≠ .waiting r) →
        exec .noticeFrameSent s = .next (sendNotice { s with link := { s.link with tx := none } })))

/-! ### The Host Link (chapter 9) -/

/-- The bytes of a frame, received one after another from HUNT, put the receiver through LEN, SEQ, KIND, BODY and CHECK, and the last of
them has the frame judged with its own CRC (R158, R159, R162, section 12.2): what the frame encoder writes, the receiver reads. On TXD the
bytes stand one after another at 230,400 bits a second, each a low start bit, its eight bits with the least significant first, and a high
stop bit; with no frame on TXD, and past the last byte, the level is high (R157, R165, R168). -/
def Obligations.FrameBytesReadBack : Prop :=
  (∀ (f : Frame) (s : State), f.body.length ≤ 240 → s.link.rx = .hunt →
    f.bytes.foldl (fun u b => receiveByte b u) s = judgeFrame f (crc f.covered).toNat { s with link := { s.link with
      rx := .within s.now (.check (byteOf f.body.length) f.seq f.kind f.body (some (byteOf (crc f.covered).toNat))) } }) ∧
  (∀ s : State,
    (s.link.tx = none → txdLevel s = .high) ∧
    (∀ (bytes : List Byte) (source : TxSource) (began k j : Nat),
      s.link.tx = some { bytes := bytes, source := source, endsAt := began + bytes.length * 10000000 / 230400 } → began ≤ s.now →
      (s.now - began) * 230400 / 1000000 = 10 * k + j → j < 10 →
      (∀ b, bytes[k]? = some b →
        (j = 0 → txdLevel s = .low) ∧
        (1 ≤ j → j ≤ 8 → txdLevel s = if b.getLsbD (j - 1) then .high else .low) ∧
        (j = 9 → txdLevel s = .high)) ∧
      (bytes[k]? = none → txdLevel s = .high)))

/-- Single characters (R157, R159 to R161, R168): in HUNT the start byte begins a frame and any other byte is discarded; in LEN a byte above
240, and in any state but HUNT a framing error and the gap limit, abandon the frame with one link error. A framing error leaves the receiver
waiting for RXD to return high, which any later character shows; the character under way as a hardware reset ended is not received. The
commands named are BYTE_TAKEN, LENGTH_BYTE_ABOVE_240, FRAMING_ERROR and GAP_LIMIT (their operands: log 11; the receiver's view of RXD:
log 33). The count is exact where no clearing STATUS meets the error (R163). -/
def Obligations.CharactersReceived : Prop :=
  ∀ s : State, s.hwReset = none →
    let seen (front : RxFront) : State := { s with link := { s.link with front := front } }
    let errors := if s.link.errors < 65535 then s.link.errors + 1 else s.link.errors
    let abandoned (front : RxFront) : State :=
      { s with link := { s.link with rx := .hunt, errors := errors, front := front } }
    (s.link.front = .leavingOut →
      exec .framingError s = .next (seen .seeking) ∧
      ∀ b : Byte, exec (.byteTaken b) s = .next (seen .seeking) ∧ exec (.lengthByteAbove240 b) s = .next (seen .seeking) ∧
        exec (.requestFrameReceived b) s = .next (seen .seeking) ∧ exec (.ack b) s = .next (seen .seeking) ∧
        exec (.frameDiscarded b) s = .next (seen .seeking)) ∧
    (s.link.front ≠ .leavingOut → s.link.rx = .hunt →
      exec (.byteTaken 0xA7) s
        = .next { s with link := { s.link with rx := .within s.now .len, front := .seeking } } ∧
      (∀ b : Byte, b ≠ 0xA7 → exec (.byteTaken b) s = .next (seen .seeking)) ∧
      exec .framingError s = .next (seen .awaitingHigh)) ∧
    (∀ last, s.link.front ≠ .leavingOut → s.clearedAt ≠ some s.now → s.link.rx = .within last .len →
      (∀ b : Byte, 240 < b.toNat → exec (.lengthByteAbove240 b) s = .next (abandoned .seeking)) ∧
      (∀ b : Byte, b.toNat ≤ 240 →
        exec (.byteTaken b) s
          = .next { s with link := { s.link with rx := .within s.now (.seq b), front := .seeking } })) ∧
    (∀ last part, s.clearedAt ≠ some s.now → s.link.rx = .within last part →
      (s.link.front ≠ .leavingOut → exec .framingError s = .next (abandoned .awaitingHigh)) ∧
      (last + 2001 = s.now → exec .gapLimit s = .next (abandoned s.link.front)))

/-- The second CRC byte (R149, R162, R164, R171). A frame that fails its CRC, or has a kind of 0x80 or above, is discarded with one link
error. A valid ACK frame restarts the silence timer and is taken by the Notice Unit. A valid request frame restarts the silence timer and, if
the reply slot is occupied, waits in the holding buffer, or is discarded with one link error if that is occupied too. The commands named are
FRAME_DISCARDED, ACK and REQUEST_FRAME_RECEIVED; that each carries the second CRC byte is the model's choice (log 11). The character under
way as a hardware reset ended is none of these (R168; log 33). Where notices of steps fired at this instant are still held, an ACK finds
them not yet taken: the model's choice (log 10). So is that a free transmitter has taken a due entry in the expiry itself, before an ACK of
its instant (log 40). -/
def Obligations.CompleteFrames : Prop :=
  ∀ (last : Nat) (len seq kind lo b : Byte) (body : List Byte) (s : State), s.hwReset = none → s.clearedAt ≠ some s.now →
    s.link.front ≠ .leavingOut → s.link.rx = .within last (.check len seq kind body (some lo)) →
    let f : Frame := ⟨seq, kind, body⟩
    let good := (crc f.covered).toNat = lo.toNat + 256 * b.toNat
    let errors := if s.link.errors < 65535 then s.link.errors + 1 else s.link.errors
    let heard : State := { s with
      link := { s.link with rx := .hunt, front := .seeking }
      safe := { s.safe with timer := if s.safe.period = 0 then none else some (s.now + s.safe.period * 1000) } }
    ((¬ good ∨ 128 ≤ kind.toNat) →
      exec (.frameDiscarded b) s
        = .next { s with link := { s.link with rx := .hunt, errors := errors, front := .seeking } }) ∧
    (good → kind = 0x40 →
      (∀ num, body = [num] →
        exec (.ack b) s = .next (arbitrate { heard with notices := heard.notices.ack s.now num })) ∧
      (body.length ≠ 1 → exec (.ack b) s = .next (arbitrate heard))) ∧
    (good → kind.toNat < 128 → kind ≠ 0x40 → s.disp.slot ≠ .empty →
      (s.link.holding = none →
        exec (.requestFrameReceived b) s = .next { heard with link := { heard.link with holding := some f } }) ∧
      (s.link.holding.isSome = true →
        exec (.requestFrameReceived b) s = .next { heard with link := { heard.link with errors := errors } }))

/-- A valid request frame that finds the holding buffer and the reply slot empty is taken by the Dispatcher at once: with the second CRC
byte the machine does what the request itself does, in this same step (the model's reading, log 7), the receiver in HUNT and the silence
timer restarted (R164, R171). The character under way as a hardware reset ended is no such byte (R168; log 33). -/
def Obligations.RequestFrameTakenAtOnce : Prop :=
  ∀ (c : Instr) (f : Frame) (last : Nat) (len lo b : Byte) (s : State), requestFrame? c = some f →
    s.hwReset = none → s.link.front ≠ .leavingOut → s.link.rx = .within last (.check len f.seq f.kind f.body (some lo)) →
    (crc f.covered).toNat = lo.toNat + 256 * b.toNat → s.link.holding = none → s.disp.slot = .empty →
    exec (.requestFrameReceived b) s = exec c { s with
      link := { s.link with rx := .hunt, front := .seeking }
      safe := { s.safe with timer := if s.safe.period = 0 then none else some (s.now + s.safe.period * 1000) } }

/-! ### Hardware resets (R181) -/

/-- A hardware reset begins: the queues, plans, channels and frames are gone, SAFEOUT is low and no field line is driven (R66, R82, R129, R168,
R181). It ends: the blocks are in the state of R4, R29, R47, R82, R155, R168 and R170, the samples of NSTOP and SYNC are taken, READY stands
in the queue with its cause, with NSTOP low SAFE is set with STOP_LINE and SAFE_ENTERED follows READY (R139, R154), and a character under way
is left out (R168; the operand that says so is the model's choice, log 33). What the blocks hold during the reset, and the cause of one that
begins inside another, are the model's choice (log 19); so are the time base at 0 (log 3) and READY not yet on TXD (log 8), and the cycle
number 0 of SAFE_ENTERED is its reading (log 28). While it lasts no character, no sample of a pin, no request and no event of the part has
an effect, but for the levels that EDGE_LINE_CHANGE puts on the field lines (R168, R181, section 12.8). -/
def Obligations.HardwareResets : Prop :=
  ∀ s : State,
    (∀ cause, ∃ t, exec (.hardwareResetBegin cause) s = .next t ∧
      t.hwReset = some (if s.hwReset = some .powerOn then .powerOn else cause) ∧
      t.safe.safeOut = .low ∧ (∀ n : Fin 32, lineDrive t n = none) ∧ txdLevel t = .high ∧ t.notices.queue = [] ∧ t.raising = [] ∧
      t.link = HostLink.afterHardwareReset ∧ t.disp = Dispatcher.afterReset ∧ t.plans = PlanStore.afterReset ∧
      t.engine = Engine.afterReset ∧ t.walk = Walk.absent ∧ t.chans = ChannelTable.afterReset ∧
      t.pins.lines = s.pins.lines ∧ t.pending = s.pending) ∧
    (∀ (cause : ResetCause) (nstop sync : Level) (midCharacter : Bool), s.hwReset = some cause →
      exec (.hardwareResetEnd ⟨nstop, sync⟩ midCharacter) s = .next { State.reset with
        link := { HostLink.afterHardwareReset with front := if midCharacter then .leavingOut else .seeking }
        safe := { State.reset.safe with
          safe := nstop == .low
          causes := { request := false, stopLine := nstop == .low, silence := false }
          nstop := nstop
          safeOut := if nstop = .low then .low else .high }
        notices := { State.reset.notices with queue :=
          { kind := .ready, subject := some (if cause = .powerOn then 0 else 1), count := 1, cycle := 0, detail := 0,
            state := .unsent }
          :: (if nstop = .low then
            [{ kind := .safeEntered, subject := some 2, count := 1, cycle := 0, detail := 0, state := .unsent }]
          else []) }
        pins := { sync := sync, lines := s.pins.lines }
        choices := s.choices
        pending := s.pending }) ∧
    (∀ cause, s.hwReset = some cause →
      (∀ levels, exec (.edgeLineChange levels) s = .next { s with pins := { s.pins with lines := levels } }) ∧
      (∀ c : Instr, (∀ levels, c ≠ .edgeLineChange levels) → (∀ cause, c ≠ .hardwareResetBegin cause) →
        (∀ samples midCharacter, c ≠ .hardwareResetEnd samples midCharacter) → exec c s = .next s)) ∧
    (∀ (nstop sync : Level) (midCharacter : Bool), s.hwReset = none →
      exec (.hardwareResetEnd ⟨nstop, sync⟩ midCharacter) s = .next s)

/-! ### The laws -/

/-- The state after a reset meets every law of the part. -/
def Obligations.ResetMeetsLaws : Prop :=
  PlanLaw State.reset ∧ EngineLaw State.reset ∧ ChannelLaw State.reset ∧ SafeLaw State.reset ∧ NoticeLaw State.reset ∧
    LinkLaw State.reset ∧ TimeLaw State.reset ∧ DebounceLaw State.reset

/-- The laws of R23 and R24 are kept by every step: the active chain, and a standby chain whose swap is pending, stay valid, and the walk
stays on the active chain. -/
def Obligations.PlanLawKept : Prop := ∀ s t : State, PlanLaw s → step s = .next t → PlanLaw t

/-- In a state that meets the plan law every step answers a next state: a walk meets no empty slot and no unfit channel (R24, R49). -/
def Obligations.PlanLawExcludesFaults : Prop := ∀ s : State, PlanLaw s → ∃ t, step s = .next t

/-- What R28 says of the engine's fields, R46 of the walk outside a cycle and R116 of edge windows is kept by every step. -/
def Obligations.EngineLawKept : Prop := ∀ s t : State, EngineLaw s → step s = .next t → EngineLaw t

/-- The ranges of every field of every channel and of its queued records (R63, R64, R84, R85, R108), the line map (R65), the queue law
(R68) and the free count (R67) are kept by every step of a state that meets the laws of the engine and of appointments. -/
def Obligations.ChannelLawKept : Prop :=
  ∀ s t : State, EngineLaw s → TimeLaw s → ChannelLaw s → step s = .next t → ChannelLaw t

/-- SAFE is set exactly while there is a cause, SAFEOUT shows it, and while it is set every output is at its safe value with no burst in
flight: kept by every step (R94, R128, R129). -/
def Obligations.SafeLawKept : Prop := ∀ s t : State, SafeLaw s → step s = .next t → SafeLaw t

/-- The law of the notice queue, with its window, numbers, tally and timer, is kept by every step (R140, R145, R147, R152). -/
def Obligations.NoticeLawKept : Prop := ∀ s t : State, NoticeLaw s → step s = .next t → NoticeLaw t

/-- The reply slot, the holding buffer, the soft-reset flag and the transmitter agree after every step (R165, R166, R170, R171, R179). -/
def Obligations.LinkLawKept : Prop := ∀ s t : State, LinkLaw s → step s = .next t → LinkLaw t

/-- No boundary, step of a walk, timer, frame end, gap limit or burst phase end is ever overdue (R27, R28, R50, R62, R93, R134, R147, R161,
R165): kept by every step of a state that meets the plan law, whose offsets do not decrease along the walk. -/
def Obligations.TimeLawKept : Prop := ∀ s t : State, PlanLaw s → TimeLaw s → step s = .next t → TimeLaw t

/-- A debounce in progress stands on a line of an OPEN window that shows its new level, and is confirmed or discarded no later than its
time (R117 to R119): kept by every step. -/
def Obligations.DebounceLawKept : Prop := ∀ s t : State, DebounceLaw s → step s = .next t → DebounceLaw t
end

