-- ==== Sys2Proof/Laws/State.lean ====
section
/-! SUPPORT. What the shared updates of State leave unchanged, one lemma per field. -/

namespace Sys2Proof.Machine

/-! ### One channel record replaced -/

@[simp] theorem State.setChan_now (ch : ChanIx) (c : Channel) (s : State) : (s.setChan ch c).now = s.now := rfl
@[simp] theorem State.setChan_hwReset (ch : ChanIx) (c : Channel) (s : State) : (s.setChan ch c).hwReset = s.hwReset := rfl
@[simp] theorem State.setChan_plans (ch : ChanIx) (c : Channel) (s : State) : (s.setChan ch c).plans = s.plans := rfl
@[simp] theorem State.setChan_engine (ch : ChanIx) (c : Channel) (s : State) : (s.setChan ch c).engine = s.engine := rfl
@[simp] theorem State.setChan_walk (ch : ChanIx) (c : Channel) (s : State) : (s.setChan ch c).walk = s.walk := rfl
@[simp] theorem State.setChan_lineMap (ch : ChanIx) (c : Channel) (s : State) :
    (s.setChan ch c).chans.lineMap = s.chans.lineMap := rfl
@[simp] theorem State.setChan_freeCount (ch : ChanIx) (c : Channel) (s : State) :
    (s.setChan ch c).chans.freeCount = s.chans.freeCount := rfl
@[simp] theorem State.setChan_safe (ch : ChanIx) (c : Channel) (s : State) : (s.setChan ch c).safe = s.safe := rfl
@[simp] theorem State.setChan_notices (ch : ChanIx) (c : Channel) (s : State) : (s.setChan ch c).notices = s.notices := rfl
@[simp] theorem State.setChan_link (ch : ChanIx) (c : Channel) (s : State) : (s.setChan ch c).link = s.link := rfl
@[simp] theorem State.setChan_disp (ch : ChanIx) (c : Channel) (s : State) : (s.setChan ch c).disp = s.disp := rfl
@[simp] theorem State.setChan_pins (ch : ChanIx) (c : Channel) (s : State) : (s.setChan ch c).pins = s.pins := rfl
@[simp] theorem State.setChan_raising (ch : ChanIx) (c : Channel) (s : State) : (s.setChan ch c).raising = s.raising := rfl
@[simp] theorem State.setChan_pending (ch : ChanIx) (c : Channel) (s : State) : (s.setChan ch c).pending = s.pending := rfl
@[simp] theorem State.setChan_choices (ch : ChanIx) (c : Channel) (s : State) : (s.setChan ch c).choices = s.choices := rfl
@[simp] theorem State.setChan_clearedAt (ch : ChanIx) (c : Channel) (s : State) :
    (s.setChan ch c).clearedAt = s.clearedAt := rfl
@[simp] theorem State.setChan_putAt (ch : ChanIx) (c : Channel) (s : State) : (s.setChan ch c).putAt = s.putAt := rfl

/-- The replaced record reads back. -/
@[simp] theorem State.chan_setChan_self (ch : ChanIx) (c : Channel) (s : State) : (s.setChan ch c).chan ch = c := by
  show (s.chans.records.set ch.val c ch.isLt)[ch.val] = c
  simp

/-- Every other record stays. -/
theorem State.chan_setChan_other {ch other : ChanIx} (h : other ≠ ch) (c : Channel) (s : State) :
    (s.setChan ch c).chan other = s.chan other := by
  have h' : ch.val ≠ other.val := fun e => h (Fin.ext e.symm)
  show (s.chans.records.set ch.val c ch.isLt)[other.val] = s.chans.records[other.val]
  simp [h']

/-- A record reads as one function of the record before when all are changed by it. -/
@[simp] theorem ChannelTable.mapRecords_get (f : Channel → Channel) (t : ChannelTable) (ch : ChanIx) :
    (t.mapRecords f).records.get ch = f (t.records.get ch) := by
  show (Vector.ofFn fun ch => f (t.records.get ch))[ch.val] = f (t.records.get ch)
  simp

@[simp] theorem ChannelTable.mapRecords_lineMap (f : Channel → Channel) (t : ChannelTable) :
    (t.mapRecords f).lineMap = t.lineMap := rfl
@[simp] theorem ChannelTable.mapRecords_freeCount (f : Channel → Channel) (t : ChannelTable) :
    (t.mapRecords f).freeCount = t.freeCount := rfl

/-! ### A raised notice -/

@[simp] theorem raise_now (r : Raised) (s : State) : (raise r s).now = s.now := rfl
@[simp] theorem raise_hwReset (r : Raised) (s : State) : (raise r s).hwReset = s.hwReset := rfl
@[simp] theorem raise_plans (r : Raised) (s : State) : (raise r s).plans = s.plans := rfl
@[simp] theorem raise_engine (r : Raised) (s : State) : (raise r s).engine = s.engine := rfl
@[simp] theorem raise_walk (r : Raised) (s : State) : (raise r s).walk = s.walk := rfl
@[simp] theorem raise_chans (r : Raised) (s : State) : (raise r s).chans = s.chans := rfl
@[simp] theorem raise_safe (r : Raised) (s : State) : (raise r s).safe = s.safe := rfl
@[simp] theorem raise_notices (r : Raised) (s : State) : (raise r s).notices = s.notices.take r := rfl
@[simp] theorem raise_link (r : Raised) (s : State) : (raise r s).link = s.link := rfl
@[simp] theorem raise_disp (r : Raised) (s : State) : (raise r s).disp = s.disp := rfl
@[simp] theorem raise_pins (r : Raised) (s : State) : (raise r s).pins = s.pins := rfl
@[simp] theorem raise_raising (r : Raised) (s : State) : (raise r s).raising = s.raising := rfl
@[simp] theorem raise_choices (r : Raised) (s : State) : (raise r s).choices = s.choices := rfl
@[simp] theorem raise_pending (r : Raised) (s : State) : (raise r s).pending = s.pending := rfl
@[simp] theorem raise_clearedAt (r : Raised) (s : State) :
    (raise r s).clearedAt = s.clearedAt := rfl
@[simp] theorem raise_putAt (r : Raised) (s : State) : (raise r s).putAt = s.putAt := rfl

/-! ### A frame on TXD -/

@[simp] theorem beginFrame_now (src : TxSource) (f : Frame) (s : State) : (beginFrame src f s).now = s.now := rfl
@[simp] theorem beginFrame_hwReset (src : TxSource) (f : Frame) (s : State) : (beginFrame src f s).hwReset = s.hwReset := rfl
@[simp] theorem beginFrame_plans (src : TxSource) (f : Frame) (s : State) : (beginFrame src f s).plans = s.plans := rfl
@[simp] theorem beginFrame_engine (src : TxSource) (f : Frame) (s : State) : (beginFrame src f s).engine = s.engine := rfl
@[simp] theorem beginFrame_walk (src : TxSource) (f : Frame) (s : State) : (beginFrame src f s).walk = s.walk := rfl
@[simp] theorem beginFrame_chans (src : TxSource) (f : Frame) (s : State) : (beginFrame src f s).chans = s.chans := rfl
@[simp] theorem beginFrame_safe (src : TxSource) (f : Frame) (s : State) : (beginFrame src f s).safe = s.safe := rfl
@[simp] theorem beginFrame_notices (src : TxSource) (f : Frame) (s : State) : (beginFrame src f s).notices = s.notices := rfl
@[simp] theorem beginFrame_rx (src : TxSource) (f : Frame) (s : State) : (beginFrame src f s).link.rx = s.link.rx := rfl
@[simp] theorem beginFrame_holding (src : TxSource) (f : Frame) (s : State) :
    (beginFrame src f s).link.holding = s.link.holding := rfl
@[simp] theorem beginFrame_last (src : TxSource) (f : Frame) (s : State) : (beginFrame src f s).link.last = s.link.last := rfl
@[simp] theorem beginFrame_errors (src : TxSource) (f : Frame) (s : State) :
    (beginFrame src f s).link.errors = s.link.errors := rfl
@[simp] theorem beginFrame_disp (src : TxSource) (f : Frame) (s : State) : (beginFrame src f s).disp = s.disp := rfl
@[simp] theorem beginFrame_pins (src : TxSource) (f : Frame) (s : State) : (beginFrame src f s).pins = s.pins := rfl
@[simp] theorem beginFrame_raising (src : TxSource) (f : Frame) (s : State) : (beginFrame src f s).raising = s.raising := rfl
@[simp] theorem beginFrame_choices (src : TxSource) (f : Frame) (s : State) : (beginFrame src f s).choices = s.choices := rfl
@[simp] theorem beginFrame_pending (src : TxSource) (f : Frame) (s : State) : (beginFrame src f s).pending = s.pending := rfl
@[simp] theorem beginFrame_clearedAt (src : TxSource) (f : Frame) (s : State) :
    (beginFrame src f s).clearedAt = s.clearedAt := rfl
@[simp] theorem beginFrame_putAt (src : TxSource) (f : Frame) (s : State) : (beginFrame src f s).putAt = s.putAt := rfl
@[simp] theorem beginFrame_front (src : TxSource) (f : Frame) (s : State) :
    (beginFrame src f s).link.front = s.link.front := rfl
@[simp] theorem beginFrame_tx (src : TxSource) (f : Frame) (s : State) :
    (beginFrame src f s).link.tx = some (TxFrame.begun src f s.now) := rfl

/-! ### The receiver in another state -/

@[simp] theorem setRx_rx (r : Receiver) (s : State) : (setRx r s).link.rx = r := rfl
@[simp] theorem setRx_now (r : Receiver) (s : State) : (setRx r s).now = s.now := rfl
@[simp] theorem setRx_hwReset (r : Receiver) (s : State) : (setRx r s).hwReset = s.hwReset := rfl
@[simp] theorem setRx_plans (r : Receiver) (s : State) : (setRx r s).plans = s.plans := rfl
@[simp] theorem setRx_engine (r : Receiver) (s : State) : (setRx r s).engine = s.engine := rfl
@[simp] theorem setRx_walk (r : Receiver) (s : State) : (setRx r s).walk = s.walk := rfl
@[simp] theorem setRx_chans (r : Receiver) (s : State) : (setRx r s).chans = s.chans := rfl
@[simp] theorem setRx_safe (r : Receiver) (s : State) : (setRx r s).safe = s.safe := rfl
@[simp] theorem setRx_notices (r : Receiver) (s : State) : (setRx r s).notices = s.notices := rfl
@[simp] theorem setRx_holding (r : Receiver) (s : State) : (setRx r s).link.holding = s.link.holding := rfl
@[simp] theorem setRx_last (r : Receiver) (s : State) : (setRx r s).link.last = s.link.last := rfl
@[simp] theorem setRx_tx (r : Receiver) (s : State) : (setRx r s).link.tx = s.link.tx := rfl
@[simp] theorem setRx_errors (r : Receiver) (s : State) : (setRx r s).link.errors = s.link.errors := rfl
@[simp] theorem setRx_disp (r : Receiver) (s : State) : (setRx r s).disp = s.disp := rfl
@[simp] theorem setRx_pins (r : Receiver) (s : State) : (setRx r s).pins = s.pins := rfl
@[simp] theorem setRx_raising (r : Receiver) (s : State) : (setRx r s).raising = s.raising := rfl
@[simp] theorem setRx_pending (r : Receiver) (s : State) : (setRx r s).pending = s.pending := rfl
@[simp] theorem setRx_choices (r : Receiver) (s : State) : (setRx r s).choices = s.choices := rfl
@[simp] theorem setRx_clearedAt (r : Receiver) (s : State) :
    (setRx r s).clearedAt = s.clearedAt := rfl
@[simp] theorem setRx_putAt (r : Receiver) (s : State) : (setRx r s).putAt = s.putAt := rfl
@[simp] theorem setRx_front (r : Receiver) (s : State) :
    (setRx r s).link.front = s.link.front := rfl

/-! ### A reply placed and stored -/

@[simp] theorem State.replied_now (f : Frame) (b : List Byte) (s : State) : (s.replied f b).now = s.now := rfl
@[simp] theorem State.replied_hwReset (f : Frame) (b : List Byte) (s : State) : (s.replied f b).hwReset = s.hwReset := rfl
@[simp] theorem State.replied_plans (f : Frame) (b : List Byte) (s : State) : (s.replied f b).plans = s.plans := rfl
@[simp] theorem State.replied_engine (f : Frame) (b : List Byte) (s : State) : (s.replied f b).engine = s.engine := rfl
@[simp] theorem State.replied_walk (f : Frame) (b : List Byte) (s : State) : (s.replied f b).walk = s.walk := rfl
@[simp] theorem State.replied_chans (f : Frame) (b : List Byte) (s : State) : (s.replied f b).chans = s.chans := rfl
@[simp] theorem State.replied_safe (f : Frame) (b : List Byte) (s : State) : (s.replied f b).safe = s.safe := rfl
@[simp] theorem State.replied_notices (f : Frame) (b : List Byte) (s : State) : (s.replied f b).notices = s.notices := rfl
@[simp] theorem State.replied_tx (f : Frame) (b : List Byte) (s : State) : (s.replied f b).link.tx = s.link.tx := rfl
@[simp] theorem State.replied_rx (f : Frame) (b : List Byte) (s : State) : (s.replied f b).link.rx = s.link.rx := rfl
@[simp] theorem State.replied_errors (f : Frame) (b : List Byte) (s : State) : (s.replied f b).link.errors = s.link.errors := rfl
@[simp] theorem State.replied_holding (f : Frame) (b : List Byte) (s : State) : (s.replied f b).link.holding = none := rfl
@[simp] theorem State.replied_last (f : Frame) (b : List Byte) (s : State) :
    (s.replied f b).link.last = some (f, replyTo f b) := rfl
@[simp] theorem State.replied_slot (f : Frame) (b : List Byte) (s : State) :
    (s.replied f b).disp.slot = .waiting (replyTo f b) := rfl
@[simp] theorem State.replied_softReset (f : Frame) (b : List Byte) (s : State) :
    (s.replied f b).disp.softReset = s.disp.softReset := rfl
@[simp] theorem State.replied_pins (f : Frame) (b : List Byte) (s : State) : (s.replied f b).pins = s.pins := rfl
@[simp] theorem State.replied_raising (f : Frame) (b : List Byte) (s : State) : (s.replied f b).raising = s.raising := rfl
@[simp] theorem State.replied_pending (f : Frame) (b : List Byte) (s : State) : (s.replied f b).pending = s.pending := rfl
@[simp] theorem State.replied_choices (f : Frame) (b : List Byte) (s : State) : (s.replied f b).choices = s.choices := rfl
@[simp] theorem State.replied_clearedAt (f : Frame) (b : List Byte) (s : State) :
    (s.replied f b).clearedAt = s.clearedAt := rfl
@[simp] theorem State.replied_putAt (f : Frame) (b : List Byte) (s : State) : (s.replied f b).putAt = s.putAt := rfl
@[simp] theorem State.replied_front (f : Frame) (b : List Byte) (s : State) :
    (s.replied f b).link.front = s.link.front := rfl

/-! ### The fill in a QUEUE_PUT reply -/

/-- Without a QUEUE_PUT on this channel at this instant nothing changes. -/
theorem reportFill_none {ch : ChanIx} {s : State} (h : s.putAt ≠ some (s.now, ch)) (fill : Nat) : reportFill ch fill s = s := by
  simp [reportFill, h]

/-- With one, the reply changes where it is held: in the slot, in the cache, and on TXD. -/
theorem reportFill_some {ch : ChanIx} {s : State} (h : s.putAt = some (s.now, ch)) (fill : Nat) :
    reportFill ch fill s = { s with
      disp := { s.disp with slot := s.disp.slot.map (Frame.withFill fill) }
      link := { s.link with
        last := s.link.last.map fun x => (x.1, x.2.withFill fill)
        tx := match s.disp.slot with
          | .inTransmission r => s.link.tx.map fun x => { x with bytes := (r.withFill fill).bytes }
          | _ => s.link.tx } } := if_pos h

@[simp] theorem reportFill_now (ch : ChanIx) (n : Nat) (s : State) :
    (reportFill ch n s).now = s.now := by
  unfold reportFill; split <;> rfl
@[simp] theorem reportFill_hwReset (ch : ChanIx) (n : Nat) (s : State) :
    (reportFill ch n s).hwReset = s.hwReset := by
  unfold reportFill; split <;> rfl
@[simp] theorem reportFill_plans (ch : ChanIx) (n : Nat) (s : State) :
    (reportFill ch n s).plans = s.plans := by
  unfold reportFill; split <;> rfl
@[simp] theorem reportFill_engine (ch : ChanIx) (n : Nat) (s : State) :
    (reportFill ch n s).engine = s.engine := by
  unfold reportFill; split <;> rfl
@[simp] theorem reportFill_walk (ch : ChanIx) (n : Nat) (s : State) :
    (reportFill ch n s).walk = s.walk := by
  unfold reportFill; split <;> rfl
@[simp] theorem reportFill_chans (ch : ChanIx) (n : Nat) (s : State) :
    (reportFill ch n s).chans = s.chans := by
  unfold reportFill; split <;> rfl
@[simp] theorem reportFill_safe (ch : ChanIx) (n : Nat) (s : State) :
    (reportFill ch n s).safe = s.safe := by
  unfold reportFill; split <;> rfl
@[simp] theorem reportFill_notices (ch : ChanIx) (n : Nat) (s : State) :
    (reportFill ch n s).notices = s.notices := by
  unfold reportFill; split <;> rfl
@[simp] theorem reportFill_pins (ch : ChanIx) (n : Nat) (s : State) :
    (reportFill ch n s).pins = s.pins := by
  unfold reportFill; split <;> rfl
@[simp] theorem reportFill_raising (ch : ChanIx) (n : Nat) (s : State) :
    (reportFill ch n s).raising = s.raising := by
  unfold reportFill; split <;> rfl
@[simp] theorem reportFill_choices (ch : ChanIx) (n : Nat) (s : State) :
    (reportFill ch n s).choices = s.choices := by
  unfold reportFill; split <;> rfl
@[simp] theorem reportFill_clearedAt (ch : ChanIx) (n : Nat) (s : State) :
    (reportFill ch n s).clearedAt = s.clearedAt := by
  unfold reportFill; split <;> rfl
@[simp] theorem reportFill_putAt (ch : ChanIx) (n : Nat) (s : State) :
    (reportFill ch n s).putAt = s.putAt := by
  unfold reportFill; split <;> rfl
@[simp] theorem reportFill_pending (ch : ChanIx) (n : Nat) (s : State) :
    (reportFill ch n s).pending = s.pending := by
  unfold reportFill; split <;> rfl
@[simp] theorem reportFill_rx (ch : ChanIx) (n : Nat) (s : State) :
    (reportFill ch n s).link.rx = s.link.rx := by
  unfold reportFill; split <;> rfl
@[simp] theorem reportFill_front (ch : ChanIx) (n : Nat) (s : State) :
    (reportFill ch n s).link.front = s.link.front := by
  unfold reportFill; split <;> rfl
@[simp] theorem reportFill_holding (ch : ChanIx) (n : Nat) (s : State) :
    (reportFill ch n s).link.holding = s.link.holding := by
  unfold reportFill; split <;> rfl
@[simp] theorem reportFill_errors (ch : ChanIx) (n : Nat) (s : State) :
    (reportFill ch n s).link.errors = s.link.errors := by
  unfold reportFill; split <;> rfl
@[simp] theorem reportFill_softReset (ch : ChanIx) (n : Nat) (s : State) :
    (reportFill ch n s).disp.softReset = s.disp.softReset := by
  unfold reportFill; split <;> rfl

/-! ### Roles of the plan tables -/

@[simp] theorem TableId.other_other (t : TableId) : t.other.other = t := by cases t <;> rfl

@[simp] theorem PlanStore.setStandby_active (t : PlanTable) (p : PlanStore) : (p.setStandby t).active = p.active := by
  cases p with | mk a b r f => cases r <;> rfl

@[simp] theorem PlanStore.setStandby_swapPending (t : PlanTable) (p : PlanStore) :
    (p.setStandby t).swapPending = p.swapPending := by
  cases p with | mk a b r f => cases r <;> rfl

@[simp] theorem PlanStore.setStandby_standby (t : PlanTable) (p : PlanStore) : (p.setStandby t).standby = t := by
  cases p with | mk a b r f => cases r <;> rfl

@[simp] theorem PlanStore.setStandby_activeTable (t : PlanTable) (p : PlanStore) :
    (p.setStandby t).activeTable = p.activeTable := by
  cases p with | mk a b r f => cases r <;> rfl

end Sys2Proof.Machine
end

