-- ==== Sys2Proof/Laws/Ops.lean ====
section
/-! SUPPORT. For each shared operation, everything it can do, said once. -/

namespace Sys2Proof.Machine

/-! ### Free choices -/

/-- A free choice changes nothing but the count of choices. -/
theorem choose_state (n : Nat) (s : State) : ∃ k, (choose n s).2 = { s with choices := k } := by
  unfold choose
  split
  · exact ⟨s.choices, rfl⟩
  · exact ⟨_, rfl⟩

/-- A free choice is one of the `n` things. -/
theorem choose_lt {n : Nat} (h : 0 < n) (s : State) : (choose n s).1 < n := by
  unfold choose
  split
  · exact h
  · exact Nat.mod_lt _ h

/-- With one thing there is no choice. -/
@[simp] theorem choose_one (s : State) : choose 1 s = (0, s) := rfl

/-! ### The state beside notices -/

@[simp] theorem State.besideNotices_choices (s : State) (k : Nat) :
    ({ s with choices := k } : State).besideNotices = s.besideNotices := rfl

@[simp] theorem State.besideNotices_raising (s : State) (rs : List Raised) :
    ({ s with raising := rs } : State).besideNotices = s.besideNotices := rfl

@[simp] theorem State.besideNotices_notices (s : State) (n : NoticeUnit) :
    ({ s with notices := n } : State).besideNotices = s.besideNotices := rfl

@[simp] theorem State.besideNotices_raise (r : Raised) (s : State) : (raise r s).besideNotices = s.besideNotices := rfl

@[simp] theorem State.besideNotices_beginFrame (src : TxSource) (f : Frame) (s : State) :
    (beginFrame src f s).besideNotices = s.besideNotices := rfl

@[simp] theorem State.besideNotices_choose (n : Nat) (s : State) :
    (choose n s).2.besideNotices = s.besideNotices := by
  obtain ⟨k, h⟩ := choose_state n s
  rw [h]; rfl

/-! ### The transmitter and its arbiter -/

/-- Sending a notice touches the Notice Unit and the transmitter alone. -/
theorem sendNotice_cases (s : State) :
    (s.notices.offer s.now = none ∧ sendNotice s = s) ∨
    (∃ f n, s.notices.offer s.now = some (f, n) ∧ sendNotice s = beginFrame .notice f { s with notices := n }) := by
  unfold sendNotice
  cases h : s.notices.offer s.now with
  | none => exact .inl ⟨rfl, rfl⟩
  | some p => exact .inr ⟨p.1, p.2, rfl, rfl⟩

@[simp] theorem State.besideNotices_sendNotice (s : State) : (sendNotice s).besideNotices = s.besideNotices := by
  obtain ⟨-, h⟩ | ⟨f, n, -, h⟩ := sendNotice_cases s <;> rw [h]
  simp

/-- The arbiter does nothing while the transmitter is busy. -/
@[simp] theorem arbitrate_busy {s : State} (h : s.link.tx.isSome = true) : arbitrate s = s := by
  simp [arbitrate, h]

/-- The arbiter does nothing during a hardware reset. -/
theorem arbitrate_hwReset {s : State} (h : s.hwReset.isSome = true) : arbitrate s = s := by
  simp [arbitrate, h]

/-- A waiting reply goes first. -/
theorem arbitrate_reply {s : State} {r : Frame} (hr : s.hwReset = none) (ht : s.link.tx = none)
    (hs : s.disp.slot = .waiting r) :
    arbitrate s = beginFrame .reply r { s with disp := { s.disp with slot := .inTransmission r } } := by
  simp [arbitrate, hr, ht, hs]

/-- Without a waiting reply the Notice Unit is asked. -/
theorem arbitrate_notice {s : State} (hr : s.hwReset = none) (ht : s.link.tx = none)
    (hs : ∀ r, s.disp.slot ≠ .waiting r) : arbitrate s = sendNotice s := by
  unfold arbitrate
  cases h : s.disp.slot with
  | waiting r => exact absurd h (hs r)
  | empty => simp [hr, ht]
  | inTransmission r => simp [hr, ht]

@[simp] theorem sendNotice_raising (s : State) : (sendNotice s).raising = s.raising := by
  obtain ⟨-, h⟩ | ⟨f, n, -, h⟩ := sendNotice_cases s <;> rw [h]
  rfl

@[simp] theorem arbitrate_raising (s : State) : (arbitrate s).raising = s.raising := by
  unfold arbitrate
  split
  · rfl
  · split
    · rfl
    · simp

@[simp] theorem State.besideNotices_arbitrate (s : State) : (arbitrate s).besideNotices = s.besideNotices := by
  by_cases hr : s.hwReset.isSome = true
  · rw [arbitrate_hwReset hr]
  by_cases ht : s.link.tx.isSome = true
  · rw [arbitrate_busy ht]
  have hr' : s.hwReset = none := by simpa using hr
  have ht' : s.link.tx = none := by simpa using ht
  cases hs : s.disp.slot with
  | waiting r =>
    rw [arbitrate_reply hr' ht' hs]
    simp [State.besideNotices, beginFrame, hs, ReplySlot.staged]
  | empty => rw [arbitrate_notice hr' ht' (by simp [hs])]; simp
  | inTransmission r => rw [arbitrate_notice hr' ht' (by simp [hs])]; simp

/-- The transmitter may take a notice or leave it. -/
theorem maybeSendNotice_cases (s : State) :
    maybeSendNotice s = s ∨ (∃ k, maybeSendNotice s = sendNotice { s with choices := k }) ∨
      (∃ k, maybeSendNotice s = { s with choices := k }) := by
  unfold maybeSendNotice
  split
  · obtain ⟨k, hk⟩ := choose_state 2 s
    dsimp only
    split
    · exact .inr (.inl ⟨k, by rw [hk]⟩)
    · exact .inr (.inr ⟨k, by rw [hk]⟩)
  · exact .inl rfl

@[simp] theorem maybeSendNotice_busy {s : State} (h : s.link.tx.isSome = true) : maybeSendNotice s = s := by
  have : noticeReady s = false := by
    cases ht : s.link.tx with
    | none => simp [ht] at h
    | some x => simp [noticeReady, ht]
  simp [maybeSendNotice, this]

@[simp] theorem State.besideNotices_maybeSendNotice (s : State) :
    (maybeSendNotice s).besideNotices = s.besideNotices := by
  obtain h | ⟨k, h⟩ | ⟨k, h⟩ := maybeSendNotice_cases s <;> rw [h]
  · simp
  · rfl

/-! ### Taking raised notices -/

/-- The first notices of the sources are among the notices. -/
theorem mem_of_mem_firstOfEachSource {r : Raised} {rs : List Raised} (h : r ∈ firstOfEachSource rs) : r ∈ rs := by
  induction rs with
  | nil => simp [firstOfEachSource] at h
  | cons x xs ih =>
    simp only [firstOfEachSource, List.mem_cons, List.mem_filter] at h ⊢
    obtain h | ⟨h, -⟩ := h
    · exact .inl h
    · exact .inr (ih h)

/-- No notice of the source of a first notice stands before it. -/
theorem firstOfEachSource_first {r : Raised} {rs : List Raised} (h : r ∈ firstOfEachSource rs) :
    (rs.filter fun q => q.source == r.source).head? = some r := by
  induction rs with
  | nil => simp [firstOfEachSource] at h
  | cons x xs ih =>
    simp only [firstOfEachSource, List.mem_cons, List.mem_filter, bne_iff_ne, ne_eq] at h
    obtain rfl | ⟨h, hne⟩ := h
    · simp
    · have hx : ¬ x.source = r.source := fun e => hne e.symm
      simpa [hx] using ih h

/-- With a notice raised there is a first one. -/
theorem firstOfEachSource_length_pos {rs : List Raised} (h : rs ≠ []) : 0 < (firstOfEachSource rs).length := by
  cases rs with
  | nil => exact absurd rfl h
  | cons x xs => simp [firstOfEachSource]

/-- One notice is taken: some first notice of a source leaves the list. -/
theorem takeRaisedUpTo_succ (k : Nat) (s : State) (h : s.raising ≠ []) :
    ∃ r ∈ firstOfEachSource s.raising, ∃ c : Nat,
      takeRaisedUpTo (k + 1) s =
        takeRaisedUpTo k
          (let u := raise r { s with choices := c, raising := s.raising.erase r }
           if u.raising.isEmpty then u else maybeSendNotice u) := by
  have hpos := firstOfEachSource_length_pos h
  have hlt := choose_lt hpos s
  obtain ⟨c, hc⟩ := choose_state (firstOfEachSource s.raising).length s
  refine ⟨(firstOfEachSource s.raising)[(choose (firstOfEachSource s.raising).length s).1], List.getElem_mem _, c, ?_⟩
  simp only [takeRaisedUpTo, List.getElem?_eq_getElem hlt, hc]

/-- Taking raised notices changes nothing beside notices. -/
theorem besideNotices_takeRaisedUpTo (k : Nat) (s : State) : (takeRaisedUpTo k s).besideNotices = s.besideNotices := by
  induction k generalizing s with
  | zero => rfl
  | succ k ih =>
    by_cases h : s.raising = []
    · simp [takeRaisedUpTo, h, firstOfEachSource]
    · obtain ⟨r, -, c, e⟩ := takeRaisedUpTo_succ k s h
      rw [e, ih]
      dsimp only
      split
      · rfl
      · rw [State.besideNotices_maybeSendNotice]; rfl

@[simp] theorem State.besideNotices_takeRaised (s : State) : (takeRaised s).besideNotices = s.besideNotices :=
  besideNotices_takeRaisedUpTo _ _

@[simp] theorem State.besideNotices_raiseAll (rs : List Raised) (s : State) :
    (raiseAll rs s).besideNotices = s.besideNotices := by
  simp [raiseAll]

/-- With nothing raised nothing is taken. -/
@[simp] theorem takeRaised_nil {s : State} (h : s.raising = []) : takeRaised s = s := by
  simp [takeRaised, h, takeRaisedUpTo]

@[simp] theorem takeAll_nil (n : NoticeUnit) : takeAll [] n = n := rfl
@[simp] theorem takeAll_cons (r : Raised) (rs : List Raised) (n : NoticeUnit) : takeAll (r :: rs) n = takeAll rs (n.take r) := rfl
@[simp] theorem takeAll_append (a b : List Raised) (n : NoticeUnit) : takeAll (a ++ b) n = takeAll b (takeAll a n) :=
  List.foldl_append

/-- No notice is one order. -/
theorem InOrder.nil : InOrder [] [] := ⟨.refl _, fun _ => rfl⟩

/-- One notice is one order. -/
theorem InOrder.one (r : Raised) : InOrder [r] [r] := ⟨.refl _, fun _ => rfl⟩

/-- An order that puts a first notice of its source in front of an order of the rest. -/
theorem InOrder.cons {r : Raised} {rs order : List Raised} (hr : r ∈ firstOfEachSource rs)
    (h : InOrder (rs.erase r) order) : InOrder rs (r :: order) := by
  obtain ⟨hp, hf⟩ := h
  have hmem := mem_of_mem_firstOfEachSource hr
  refine ⟨?_, fun k => ?_⟩
  · exact (List.Perm.cons r hp).trans (List.perm_cons_erase hmem).symm
  · by_cases hk : r.source = k
    · subst hk
      have hfirst := firstOfEachSource_first hr
      have key : rs.filter (fun q => q.source == r.source)
          = r :: (rs.erase r).filter (fun q => q.source == r.source) := by
        clear hf hp hr
        induction rs with
        | nil => simp at hmem
        | cons x xs ih =>
          by_cases hx : x = r
          · subst hx; simp
          · have hxs : ¬ x.source = r.source := by
              intro e
              simp [e] at hfirst
              exact hx hfirst
            have hmem' : r ∈ xs := by
              simp only [List.mem_cons] at hmem
              exact hmem.resolve_left fun e => hx e.symm
            have hfirst' : (xs.filter fun q => q.source == r.source).head? = some r := by
              simpa [hxs] using hfirst
            have hxr : (x == r) = false := by simpa using hx
            rw [List.erase_cons, hxr]
            simpa [hxs] using ih hmem' hfirst'
      rw [key, ← hf]
      simp
    · have hk' : (r.source == k) = false := by simpa using hk
      rw [List.filter_cons, hk']
      simp only [Bool.false_eq_true, if_false]
      rw [hf]
      clear hf hp hr
      induction rs with
      | nil => simp
      | cons x xs ih =>
        by_cases hx : x = r
        · subst hx; simp [hk']
        · have hxr : (x == r) = false := by simpa using hx
          have hmem' : r ∈ xs := by
            simp only [List.mem_cons] at hmem
            exact hmem.resolve_left fun e => hx e.symm
          rw [List.erase_cons, hxr]
          simp only [Bool.false_eq_true, if_false, List.filter_cons]
          rw [ih hmem']

/-- Every raised notice is taken, in an order that the manual allows (R143). -/
theorem takeRaisedUpTo_taken (k : Nat) (s : State) (hk : s.raising.length = k) :
    (takeRaisedUpTo k s).raising = [] ∧ ∃ order, InOrder s.raising order ∧ Taken s (takeRaisedUpTo k s) order := by
  induction k generalizing s with
  | zero =>
    have h : s.raising = [] := List.length_eq_zero_iff.1 hk
    exact ⟨h, [], h ▸ InOrder.nil, .inl ⟨rfl, rfl, rfl⟩⟩
  | succ k ih =>
    have h : s.raising ≠ [] := by intro e; simp [e] at hk
    obtain ⟨r, hr, c, e⟩ := takeRaisedUpTo_succ k s h
    have hl : (s.raising.erase r).length = k := by
      rw [List.length_erase_of_mem (mem_of_mem_firstOfEachSource hr), hk]; rfl
    rw [e]
    -- one notice taken, and the transmitter not asked
    have kept : ∀ c', (takeRaisedUpTo k (raise r { s with choices := c', raising := s.raising.erase r })).raising = [] ∧
        ∃ order, InOrder s.raising order ∧
          Taken s (takeRaisedUpTo k (raise r { s with choices := c', raising := s.raising.erase r })) order := by
      intro c'
      obtain ⟨h1, order, h2, h3⟩ := ih (raise r { s with choices := c', raising := s.raising.erase r }) hl
      refine ⟨h1, r :: order, InOrder.cons hr h2, ?_⟩
      obtain h3 | ⟨ht, taken, rest, f, n, rfl, -, h5, h6⟩ := h3
      · exact .inl h3
      · exact .inr ⟨ht, r :: taken, rest, f, n, rfl, by simp, h5, h6⟩
    dsimp only
    split
    · exact kept c
    · obtain hm | ⟨c', hm⟩ | ⟨c', hm⟩ := maybeSendNotice_cases (raise r { s with choices := c, raising := s.raising.erase r })
      · rw [hm]; exact kept c
      · rw [hm]
        by_cases hb : s.link.tx.isSome = true
        · have := maybeSendNotice_busy (s := raise r { s with choices := c, raising := s.raising.erase r }) hb
          rw [← hm, this]; exact kept c
        · have hb : s.link.tx = none := by simpa using hb
          obtain ⟨-, hs⟩ | ⟨f, n, ho, hs⟩ := sendNotice_cases (raise r { s with choices := c', raising := s.raising.erase r })
          · rw [show ({ raise r { s with choices := c, raising := s.raising.erase r } with choices := c' } : State)
              = raise r { s with choices := c', raising := s.raising.erase r } from rfl, hs]
            exact kept c'
          · rw [show ({ raise r { s with choices := c, raising := s.raising.erase r } with choices := c' } : State)
              = raise r { s with choices := c', raising := s.raising.erase r } from rfl, hs]
            obtain ⟨h1, order, h2, h3⟩ := ih (beginFrame .notice f
              { raise r { s with choices := c', raising := s.raising.erase r } with notices := n }) hl
            refine ⟨h1, r :: order, InOrder.cons hr h2, .inr ⟨hb, [r], order, f, n, rfl, by simp, ho, ?_⟩⟩
            obtain ⟨h4, h5, h6⟩ | ⟨ht, -⟩ := h3
            · exact ⟨h6, h5, h4⟩
            · exact absurd ht (by simp)
      · rw [hm]; exact kept c'

/-- What raising notices does (R143). -/
theorem raiseAll_taken (rs : List Raised) {u : State} (hr : u.raising = []) :
    (raiseAll rs u).raising = [] ∧ ∃ order, InOrder rs order ∧ Taken u (raiseAll rs u) order := by
  have := takeRaisedUpTo_taken _ { u with raising := u.raising ++ rs } rfl
  simpa [hr, raiseAll, takeRaised, Taken] using this

@[simp] theorem besideNotices_tx (s : State) : s.besideNotices.link.tx = none := rfl

/-- What does not change beside notices. -/
theorem besideNotices_fields {u t : State} (h : t.besideNotices = u.besideNotices) :
    t.now = u.now ∧ t.hwReset = u.hwReset := ⟨congrArg (·.now) h, congrArg (·.hwReset) h⟩

/-- The transmitter asked once all is taken. -/
theorem Taken.arbitrate {u t : State} {order : List Raised} (hb : t.besideNotices = u.besideNotices) (hw : u.hwReset = none)
    (h : Taken u t order) : Settled u (arbitrate t) order := by
  obtain ⟨hn, hh⟩ := besideNotices_fields hb
  rw [hw] at hh
  unfold Settled
  obtain ⟨h1, h2, h3⟩ | ⟨h0, taken, rest, f, n, h1, hne, h2, h3, h4, h5⟩ := h
  · cases hx : u.link.tx with
    | some x =>
      rw [hx] at h1
      rw [arbitrate_busy (by simp [h1])]
      exact ⟨h1, h2, h3⟩
    | none =>
      rw [hx] at h1
      cases hs : u.disp.slot with
      | waiting r =>
        rw [arbitrate_reply hh h1 (h2 ▸ hs)]
        exact .inr ⟨h3, by simp [beginFrame, h2], by simp [hn]⟩
      | empty =>
        rw [arbitrate_notice hh h1 (by simp [h2, hs])]
        obtain ⟨ho, e⟩ | ⟨f, n, ho, e⟩ := sendNotice_cases t
        · rw [e]; exact .inr ⟨h3, hn ▸ ho, h2, h1⟩
        · rw [e]
          exact .inl ⟨order, [], f, n, by simp, fun _ r => by simp, by rw [← h3, ← hn]; exact ho, rfl, h2, by simp [hn]⟩
      | inTransmission r =>
        rw [arbitrate_notice hh h1 (by simp [h2, hs])]
        obtain ⟨ho, e⟩ | ⟨f, n, ho, e⟩ := sendNotice_cases t
        · rw [e]; exact .inr ⟨h3, hn ▸ ho, h2, h1⟩
        · rw [e]
          exact .inl ⟨order, [], f, n, by simp, fun _ r => by simp, by rw [← h3, ← hn]; exact ho, rfl, h2, by simp [hn]⟩
  · rw [arbitrate_busy (by simp [h5]), h0]
    exact .inl ⟨taken, rest, f, n, h1, fun e => absurd e hne, h2, h3, h4, h5⟩

/-- Raising notices and asking the transmitter. -/
theorem raisedFrom_raiseAll (rs : List Raised) {u : State} (hw : u.hwReset = none) :
    RaisedFrom u (arbitrate (raiseAll rs u)) rs := by
  refine ⟨by simp, fun hr => ?_⟩
  obtain ⟨h1, order, h2, h3⟩ := raiseAll_taken rs hr
  exact ⟨by rw [arbitrate_raising, h1], order, h2, h3.arbitrate (by simp) hw⟩

/-- Nothing raised: the arbiter alone. -/
theorem raisedFrom_arbitrate {u : State} (hw : u.hwReset = none) : RaisedFrom u (arbitrate u) [] :=
  ⟨by simp, fun hr => ⟨by rw [arbitrate_raising, hr], [], InOrder.nil, Taken.arbitrate rfl hw (.inl ⟨rfl, rfl, rfl⟩)⟩⟩

/-- One notice raised by itself, and the transmitter asked. -/
theorem raisedFrom_raise (r : Raised) {u : State} (hw : u.hwReset = none) : RaisedFrom u (arbitrate (raise r u)) [r] :=
  ⟨by simp, fun hr => ⟨by rw [arbitrate_raising, raise_raising, hr], [r], InOrder.one r,
    Taken.arbitrate (by simp) hw (.inl ⟨rfl, rfl, rfl⟩)⟩⟩

/-- A step's notices are held while another step is due, and then taken with those already held. -/
theorem firedFrom_settle (rs : List Raised) {u : State} (hw : u.hwReset = none) :
    FiredFrom u (settleFirings { u with raising := u.raising ++ rs }) rs := by
  have hd : stepDue { u with raising := u.raising ++ rs } = stepDue u := rfl
  unfold FiredFrom settleFirings
  rw [hd]
  cases stepDue u with
  | true => exact ⟨rfl, rfl, rfl, rfl, rfl⟩
  | false =>
    have hb : (takeRaised { u with raising := u.raising ++ rs }).besideNotices = u.besideNotices := by
      rw [State.besideNotices_takeRaised]; rfl
    obtain ⟨h1, order, h2, h3⟩ := takeRaisedUpTo_taken _ { u with raising := u.raising ++ rs } rfl
    exact ⟨by simp [hb], by simpa [takeRaised] using h1, order, h2, Taken.arbitrate hb hw h3⟩

/-! ### Requests at the Dispatcher -/

/-- The state with the holding buffer emptied, as the Dispatcher takes a request out of it. -/
def State.taken (s : State) : State := { s with link := { s.link with holding := none } }

/-- A request that cannot be taken changes nothing. -/
theorem dispatch_not_taken {f : Frame} {s : State} (h : canTake f s = false) (carry : Carry) : dispatch f carry s = s := by
  simp [dispatch, h]

/-- A duplicate is answered from the cache. -/
theorem serve_duplicate {f r : Frame} {s : State} (h : s.link.last = some (f, r)) (carry : Carry) :
    serve f carry s = placeReply r s.taken := by
  simp [serve, h, State.taken]

/-- A new request is carried out and stored with its reply. -/
theorem serve_new {f : Frame} {s u : State} {body : List Byte} (hl : s.link.last.map Prod.fst ≠ some f) {carry : Carry}
    (hc : carry f.body s.taken = (u, body)) (hu : u.link.holding = none) : serve f carry s = u.replied f body := by
  have hr : placeReply (replyTo f body) { u with link := { u.link with last := some (f, replyTo f body) } }
      = u.replied f body := by
    simp [placeReply, State.replied, replyTo, hu]
  have hserve : serve f carry s = match s.link.last with
      | some (g, r) =>
        if g = f then placeReply r s.taken
        else placeReply (replyTo f (carry f.body s.taken).2) { (carry f.body s.taken).1 with
          link := { (carry f.body s.taken).1.link with last := some (f, replyTo f (carry f.body s.taken).2) } }
      | none => placeReply (replyTo f (carry f.body s.taken).2) { (carry f.body s.taken).1 with
          link := { (carry f.body s.taken).1.link with last := some (f, replyTo f (carry f.body s.taken).2) } } := rfl
  rw [hserve, hc]
  split
  · rename_i g r hg
    have hne : ¬ g = f := by simpa [hg] using hl
    rw [if_neg hne]
    exact hr
  · exact hr

@[simp] theorem noticeReady_replied (f : Frame) (body : List Byte) (s : State) :
    noticeReady (s.replied f body) = noticeReady s := rfl

@[simp] theorem State.replied_taken (f : Frame) (body : List Byte) (s : State) :
    s.taken.replied f body = s.replied f body := rfl

/-- A request that raises no notice: its effect, its reply, and then the arbiter. -/
theorem dispatch_quiet {f : Frame} {s u : State} {body : List Byte} (h : TakenAsNew f s) {carry : Carry}
    (hc : carry f.body s.taken = (u.taken, body)) (hn : noticeReady u = noticeReady s) :
    dispatch f carry s = arbitrate (u.replied f body) := by
  have hs : serve f carry s = u.replied f body := (serve_new (u := u.taken) h.2 hc rfl).trans (State.replied_taken f body u)
  simp only [dispatch, h.1, if_true, hs, arbitrateAfter, noticeReady_replied, hn]
  cases noticeReady s <;> simp

/-- The arbiter after a request, with the transmitter busy. -/
@[simp] theorem arbitrateAfter_busy {b : Bool} {s : State} (h : s.link.tx.isSome = true) : arbitrateAfter b s = s := by
  have : noticeReady s = false := by
    cases ht : s.link.tx with
    | none => simp [ht] at h
    | some x => simp [noticeReady, ht]
  simp [arbitrateAfter, this, h]

@[simp] theorem arbitrateAfter_raising (b : Bool) (s : State) : (arbitrateAfter b s).raising = s.raising := by
  unfold arbitrateAfter
  obtain ⟨k, hk⟩ := choose_state 2 s
  dsimp only
  split
  · rw [hk]
    split <;> simp
  · simp

/-- The arbiter after a request changes nothing beside notices. -/
@[simp] theorem State.besideNotices_arbitrateAfter (b : Bool) (s : State) :
    (arbitrateAfter b s).besideNotices = s.besideNotices := by
  unfold arbitrateAfter
  split
  · dsimp only
    split <;> simp
  · simp

/-- The transmitter asked after a request whose reply waits: a notice goes before the reply only if the request raised one. -/
theorem Taken.arbitrateAfter {u t : State} {order : List Raised} (hb : t.besideNotices = u.besideNotices)
    (hw : u.hwReset = none) (h : Taken u t order) :
    Settled u (arbitrateAfter (noticeReady u) t) order := by
  obtain ⟨hn, hh⟩ := besideNotices_fields hb
  rw [hw] at hh
  unfold Machine.arbitrateAfter
  split
  · rename_i hready
    obtain ⟨k, hk⟩ := choose_state 2 t
    dsimp only
    have ht : t.link.tx = none := by
      cases hx : t.link.tx with
      | none => rfl
      | some x => simp [noticeReady, hx] at hready
    split
    · rw [hk]
      obtain ⟨h1, h2, h3⟩ | ⟨-, taken, rest, f, n, -, -, -, -, -, h5⟩ := h
      · have hx : u.link.tx = none := h1 ▸ ht
        obtain ⟨ho, -⟩ | ⟨f, n, ho, e⟩ := sendNotice_cases { t with choices := k }
        · simp only at ho
          simp [noticeReady, ho] at hready
        · rw [e]
          unfold Settled
          rw [hx]
          refine .inl ⟨order, [], f, n, by simp, fun e0 => ?_, by rw [← h3, ← hn]; exact ho, rfl, h2, by simp [hn]⟩
          subst e0
          simp only [takeAll_nil] at h3
          simp [noticeReady, hn, hh, hw, ht, hx, h3] at hready
          simp [hready.1] at hready
      · rw [h5] at ht; exact absurd ht (by simp)
    · rw [hk]
      exact Taken.arbitrate (t := { t with choices := k }) hb hw h
  · exact h.arbitrate hb hw

/-- A request that raises notices: its effect and its reply, the notices taken, and the transmitter asked. -/
theorem dispatch_raising {f : Frame} {s v : State} {rs : List Raised} {body : List Byte} (h : TakenAsNew f s) {carry : Carry}
    (hc : carry f.body s.taken = (raiseAll rs v, body)) (hh : v.link.holding = none) (hw : v.hwReset = none)
    (hn : noticeReady v = noticeReady s) : RaisedFrom (v.replied f body) (dispatch f carry s) rs := by
  have hb : (raiseAll rs v).besideNotices = v.besideNotices := by simp
  have hh' : (raiseAll rs v).link.holding = none := by
    rw [show (raiseAll rs v).link.holding = (raiseAll rs v).besideNotices.link.holding from rfl, hb]; exact hh
  have hd : dispatch f carry s = arbitrateAfter (noticeReady (v.replied f body)) ((raiseAll rs v).replied f body) := by
    simp only [dispatch, h.1, if_true, serve_new h.2 hc hh', noticeReady_replied, hn]
  have hb' : ((raiseAll rs v).replied f body).besideNotices = (v.replied f body).besideNotices := by
    have e := congrArg (fun s => (State.replied f body s).besideNotices) hb
    simpa [State.besideNotices, State.replied, ReplySlot.staged] using e
  rw [hd]
  refine ⟨by simp [hb'], fun hr => ?_⟩
  obtain ⟨h1, order, h2, h3⟩ := raiseAll_taken (u := v) rs hr
  refine ⟨by simp [h1], order, h2, Taken.arbitrateAfter hb' hw ?_⟩
  obtain ⟨h4, h5, h6⟩ | ⟨h0, taken, rest, g, n, e, hne, h4, h5, h6, h7⟩ := h3
  · exact .inl ⟨h4, by simp [State.replied, h5], h6⟩
  · exact .inr ⟨h0, taken, rest, g, n, e, hne, h4, h5, by simp [State.replied, h6], h7⟩

/-! ### Link errors -/

/-- A link error away from a clearing STATUS is counted (R163). -/
theorem linkError_counted {s : State} (h : s.clearedAt ≠ some s.now) :
    linkError s = { s with link := { s.link with errors := satSucc Config.counterMax s.link.errors } } := by
  unfold linkError
  dsimp only
  split
  · contradiction
  · rfl

/-! ### The receiver -/

/-- A character that completes nothing moves the receiver alone (R159). -/
theorem receiveByte_nothing {b : Byte} {r : Receiver} {s : State} (h : s.link.rx.take s.now b = (r, .nothing)) :
    receiveByte b s = setRx r s := by
  simp only [receiveByte, h]

/-- A character that ends a frame before its CRC is a link error (R160). -/
theorem receiveByte_abandoned {b : Byte} {r : Receiver} {s : State} (h : s.link.rx.take s.now b = (r, .abandoned)) :
    receiveByte b s = linkError (setRx r s) := by
  simp only [receiveByte, h]

/-- A character that completes a frame has it judged (R162). -/
theorem receiveByte_complete {b : Byte} {r : Receiver} {f : Frame} {received : Nat} {s : State}
    (h : s.link.rx.take s.now b = (r, .complete f received)) : receiveByte b s = judgeFrame f received (setRx r s) := by
  simp only [receiveByte, h]

/-! ### What is still to come at an instant -/

/-- The frames that stop the engine at once (R41). -/
theorem stopsNow_iff (f : Frame) : f.stopsNow = true ↔ ∃ seq, f = ⟨seq, 0x06, [1]⟩ := by
  cases f
  simp [Frame.stopsNow]

/-- A STOP NOW held for the reply that ends now. -/
theorem heldStopDue_iff (s : State) :
    heldStopDue s = true ↔ frameDue .reply s = true ∧ ∃ seq, s.link.holding = some ⟨seq, 0x06, [1]⟩ := by
  unfold heldStopDue
  cases s.link.holding <;> simp [stopsNow_iff]

/-- The commands that can end a cycle at the instant at which they wait. -/
theorem cycleEndWaits_iff (s : State) :
    cycleEndWaits s = true ↔ (.syncRisingEdge ∈ s.pending ∧ s.engine.mode = .sync) ∨ (∃ seq, .stop seq [1] ∈ s.pending) ∨
      ∃ seq, ⟨seq, 0x06, [1]⟩ ∈ framesToCome s := by
  unfold cycleEndWaits
  rw [Bool.or_eq_true, List.any_eq_true, List.any_eq_true, ← or_assoc]
  refine or_congr ⟨?_, ?_⟩ ⟨?_, ?_⟩
  · rintro ⟨i, hi, h⟩
    split at h
    · exact .inl ⟨hi, by simpa using h⟩
    · obtain rfl := eq_of_beq h
      exact .inr ⟨_, hi⟩
    · cases h
  · rintro (⟨h, m⟩ | ⟨_, h⟩)
    · exact ⟨_, h, by simpa using m⟩
    · exact ⟨_, h, rfl⟩
  · rintro ⟨f, hf, h⟩
    obtain ⟨q, rfl⟩ := (stopsNow_iff f).1 h
    exact ⟨q, hf⟩
  · rintro ⟨_, h⟩
    exact ⟨_, h, rfl⟩

/-- With nothing waiting and no request held, an instant is over when no boundary and no step is due. -/
theorem instantOver_idle {s : State} (hp : s.pending = []) (hh : s.link.holding = none) :
    instantOver s = (!boundaryDue s && !stepDue s) := by
  have h1 : framesToCome s = [] := by simp [framesToCome, hp, Receiver.framesFrom]
  simp [instantOver, heldStopDue, cycleEndWaits, hp, hh, h1]

/-- The samples of the field lines that wait. -/
theorem mem_samplesToCome (levels : BitVec 32) (s : State) :
    levels ∈ samplesToCome s ↔ .edgeLineChange levels ∈ s.pending := by
  unfold samplesToCome
  rw [List.mem_filterMap]
  refine ⟨?_, fun h => ⟨_, h, rfl⟩⟩
  rintro ⟨i, hi, h⟩
  split at h
  · cases h
    exact hi
  · cases h

/-- The debounces that a waiting sample ends instead of letting them be confirmed (R117, R118). -/
theorem undoneBy_iff (now : Nat) (lines levels : BitVec 32) (c : EdgeChan) :
    c.undoneBy now lines levels = true ↔ ∃ i d, i.val < c.cfg.run.width ∧ c.debounces.get i = some d ∧
      (d.began + c.debounce = now ∧ levelOf (c.cfg.run.read lines) i = d.level) ∧ levelOf (c.cfg.run.read levels) i ≠ d.level := by
  unfold EdgeChan.undoneBy
  rw [List.any_eq_true]
  refine exists_congr fun i => ?_
  cases h : c.debounces.get i <;> simp [EdgeChan.lines, EdgeChan.lineDue, allLines, h]
  grind

end Sys2Proof.Machine
end

