-- ==== Sys2Proof/Tests/Slice0.lean ====
section
/-! SUPPORT. Tests: the checks of WellFormed, one-step examples of the manual, and for every statement with hypotheses a state and
operands that meet them. -/

namespace Sys2Proof.Tests

set_option Elab.async false

open Sys2Proof Sys2Proof.Machine

/-! ### WellFormed refuses -/

theorem test_wf_body_too_long : (Instr.identify 0 (List.replicate 241 0)).wellFormed = false := by decide +kernel
theorem test_wf_known_kind : (Instr.unknownKind 0 0x01 []).wellFormed = false := by decide
theorem test_wf_ack_kind : (Instr.unknownKind 0 0x40 []).wellFormed = false := by decide
theorem test_wf_device_kind : (Instr.unknownKind 0 0x80 []).wellFormed = false := by decide
theorem test_wf_unknown_body_too_long : (Instr.unknownKind 0 0x07 (List.replicate 241 0)).wellFormed = false := by decide +kernel
theorem test_wf_length_byte : (Instr.lengthByteAbove240 240).wellFormed = false := by decide
theorem test_wf_accepts : (Instr.unknownKind 0 0x07 []).wellFormed = true ∧ (Instr.lengthByteAbove240 241).wellFormed = true := by
  decide

/-! ### The rows spell no word -/

theorem test_no_word : decodeTableWord 0 0 = none := by decide

/-! ### Two machines to test on -/

/-- The machine after reset, its READY acknowledged. -/
def fresh : State := { State.reset with notices := NoticeUnit.emptied }

def level0 : LevelChan :=
  { cfg := { run := { port := 0, first := 0, width := 4 }, depth := 8, mark := 2, idle := 0, safe := 0, starve := .hold }
    state := .driving, value := 5, queue := [1, 2, 3] }

def burstRec : BurstRec := { active := 1, count := 3, onTime := 10, offTime := 20 }

def burst1 : BurstChan :=
  { cfg := { run := { port := 0, first := 4, width := 2 }, depth := 4, mark := 1, idle := 0, safe := 1, starve := .idle }
    state := .driving, value := 1, queue := [burstRec]
    burst := some { played := burstRec, remaining := 3, phase := .on, phaseEnd := 5110 }, skips := 0 }

def sample2 : SampleChan :=
  { cfg := { run := { port := 1, first := 0, width := 8 }, depth := 4, mark := 4, full := .keepOld }, queue := [], lost := 0 }

def edgeDebounce : Debounce := { began := 5080, cycle := 5, offset := 80, level := .high }

def edge3 : EdgeChan :=
  { cfg := { run := { port := 2, first := 0, width := 1 }, depth := 4, mark := 1, full := .keepNew }
    select := .both, debounce := 50, queue := [], lost := 0, window := .opened, settled := 0
    debounces := (Vector.replicate 8 none).set 0 (some edgeDebounce), retaken := Vector.replicate 8 none }

def slot (offset : Nat) (action : Action) (next : Option SlotIx) : Step := { offset := offset, action := action, tag := 9, next := next }

def plan : PlanTable :=
  (({ head := some 0, slots := Vector.replicate 48 none } : PlanTable).setSlot 0 (some (slot 0 (.emit 0) (some 1)))
    |>.setSlot 1 (some (slot 100 (.emit 1) (some 2)))
    |>.setSlot 2 (some (slot 100 (.sample 2) (some 47)))
    |>.setSlot 47 (some (slot 900 (.closeWindow 3) none)))

/-- A running machine: four channels, a plan of four steps, cycle 5 in progress at cycle time 100 with the step in slot 1 due, one
notice SENT and one UNSENT. -/
def rig : State :=
  { fresh with
    now := 5100
    plans := { PlanStore.afterReset with tableA := plan }
    engine := { Engine.afterReset with state := .running, cycle := 5, cycleStart := some 5000, nextBoundary := some 6000 }
    walk := { pointer := some 1, table := some .a, cycle := some 5, remaining := 3 }
    chans :=
      { records := ((((Vector.replicate 16 Channel.free).set 0 (.level level0)).set 1 (.burst burst1)).set 2 (.sample sample2)).set 3
          (.edge edge3)
        lineMap := Vector.ofFn fun n =>
          if n.val < 4 then some 0 else if n.val < 6 then some 1 else if n.val < 8 then none
          else if n.val < 16 then some 2 else if n.val = 16 then some 3 else none
        freeCount := 492 }
    notices := { queue := [{ readyEntry 0 with state := .sent 0 false },
                           { kind := .mark, subject := some 9, count := 2, cycle := 4, detail := 7, state := .unsent }]
                 nextNum := 1, timer := some 60000, tally := 0, tallyCycle := 0 }
    pins := { sync := .low, lines := 0x10000 } }

/-- The transmitter sends a notice frame that ends at an instant. -/
def sending (t : Nat) (s : State) : State :=
  { s with link := { s.link with tx := some { bytes := [0xA7], source := .notice, endsAt := t } } }

/-- The body of the reply in the slot. -/
def replyBody : Out → List Byte
  | .next s =>
    match s.disp.slot with
    | .waiting r => r.body
    | .inTransmission r => r.body
    | .empty => []
  | _ => []

/-- A question about the next state. -/
def holds (p : State → Bool) : Out → Bool
  | .next s => p s
  | _ => false

/-! ### Examples of the manual -/

/-- R158: the CRC of the nine characters 1 to 9 is 0x29B1. -/
theorem test_crc : crc [0x31, 0x32, 0x33, 0x34, 0x35, 0x36, 0x37, 0x38, 0x39] = 0x29B1 := by decide +kernel

/-- R165 and its examples: frames of 7, 9, 15 and 30 bytes take 303, 390, 651 and 1302 µs. -/
theorem test_frame_times : frameTime 7 = 303 ∧ frameTime 9 = 390 ∧ frameTime 15 = 651 ∧ frameTime 30 = 1302 := by decide

/-- "Building a channel set", request 1: the free count is 448. -/
theorem test_chan_set_places :
    replyBody (exec (.chanSet 1 [0, 1, 0, 0, 4, 64, 0, 0, 0, 0, 0, 0, 0]) fresh) = [0x00, 0x00, 0xC0, 0x01] := by decide +kernel

/-- The same example, request 9: width 9 is BAD_VALUE. -/
theorem test_chan_set_width : replyBody (exec (.chanSet 1 [2, 3, 1, 0, 9, 128, 1, 0, 0, 0, 0, 0, 0]) fresh) = [0x11] := by
  decide +kernel

/-- The plan of "Validating a standby chain" passes with length 4. -/
def examplePlan (s1 s3 s7 s12 : Step) : PlanTable :=
  ({ head := some 3, slots := Vector.replicate 48 none } : PlanTable).setSlot 1 (some s1)
    |>.setSlot 3 (some s3) |>.setSlot 7 (some s7) |>.setSlot 12 (some s12) |>.setSlot 20 (some (slot 5000 (.emit 11) (some 20)))

def exampleRecords : Vector Channel 16 :=
  (((Vector.replicate 16 Channel.free).set 2 (.level level0)).set 5 (.sample sample2)).set 6 (.edge edge3)

def s1 : Step := slot 250 .mark (some 12)
def s3 : Step := slot 0 (.openWindow 6) (some 7)
def s7 : Step := slot 250 (.sample 5) (some 1)
def s12 : Step := slot 900 (.closeWindow 6) none

theorem test_validate_passes : (validate (examplePlan s1 s3 s7 s12) 1000 exampleRecords).toOption = some 4 := by decide +kernel

/-- The faults of the same example. -/
def fault (t : PlanTable) : Option (PlanCheck × SlotIx) :=
  match validate t 1000 exampleRecords with
  | .error e => some e
  | .ok _ => none

theorem test_validate_faults :
    fault ((examplePlan s1 s3 s7 s12).setSlot 7 none) = some (.brokenChain, 7) ∧
    fault (examplePlan s1 s3 s7 { s12 with next := some 7 }) = some (.loop, 7) ∧
    fault (examplePlan s1 s3 s7 { s12 with offset := 1200 }) = some (.offsetRange, 12) ∧
    fault (examplePlan { s1 with offset := 200 } s3 s7 s12) = some (.order, 1) ∧
    fault (examplePlan s1 { s3 with action := .emit 6 } s7 s12) = some (.channelKind, 3) ∧
    fault (examplePlan s1 s3 { s7 with offset := 1500 } { s12 with action := .emit 6 }) = some (.offsetRange, 7) ∧
    fault (examplePlan { s1 with offset := 1200 } s3 s7 s12) = some (.offsetRange, 1) := by decide +kernel

/-- "Draining, starving and refilling": the pop that leaves 2 raises REFILL with detail 2. -/
theorem test_emit_refill :
    (level0.emit 0 3 2).2 = [{ kind := .refill, subject := some 0, detail := 2, cycle := 2 }] ∧ (level0.emit 0 3 2).1.value = 1 := by
  decide

/-- The same example, cycle 5: the queue is empty, the lines hold, STARVED is raised; in cycle 6 it is not raised again. -/
theorem test_emit_starved :
    (({ level0 with queue := [] } : LevelChan).emit 0 3 5).2 = [{ kind := .starved, subject := some 0, detail := 3, cycle := 5 }] ∧
    (({ level0 with queue := [] } : LevelChan).emit 0 3 5).1.value = 5 ∧
    (({ level0 with queue := [], state := .starved } : LevelChan).emit 0 3 6).2 = [] := by decide

/-- The same example: QUEUE_PUT of ten records on the empty queue of depth 8 is PARTIAL, 8 accepted, fill 8. -/
theorem test_queue_put_partial :
    replyBody (exec (.queuePut 1 [0, 6, 7, 8, 9, 10, 11, 12, 13, 14, 15]) (rig.setChan 0 (.level { level0 with queue := [] })))
      = [0x01, 8, 8] := by decide +kernel

/-- "A sample channel that the host neglects": the append to the full queue is lost and the lost count is 1. -/
theorem test_sample_lost :
    (({ sample2 with queue := List.replicate 4 ⟨0, 7, 1⟩ } : SampleChan).append 2 ⟨4, 7, 9⟩).2
      = [{ kind := .lost, subject := some 2, detail := 1, cycle := 4 }] := by decide

/-- "An emergency stop": SAFE puts channel 1 at its safe value 1 with its burst cut, and the reply carries REQUEST. -/
theorem test_safe_request :
    replyBody (exec (.safe 1 []) (sending 9999 rig)) = [0x00, 0x01, 0x01] ∧
    holds (fun s => s.chan 1 == .burst { burst1 with value := 1, burst := none } && s.safe.safeOut == .low)
      (exec (.safe 1 []) (sending 9999 rig)) = true := by decide +kernel

/-- The same example: with NSTOP low RESUME is STOP_ACTIVE and reports REQUEST and STOP_LINE. -/
theorem test_resume_refused :
    replyBody (exec (.resume 1 []) { rig with safe := { rig.safe with
      safe := true, safeOut := .low, nstop := .low, causes := { request := true, stopLine := true, silence := false } } })
      = [0x40, 0x01, 0x03] := by decide +kernel

/-- "The window": ACK 6 removes the entries #5 and #6. -/
theorem test_ack_cumulative :
    ((({ NoticeUnit.emptied with
        queue := [5, 6, 7, 8].map fun n => { readyEntry 0 with state := SendState.sent n false }, nextNum := 9 } : NoticeUnit).ack 100 6).queue.map
      Notice.state) = [.sent 7 false, .sent 8 false] := by decide +kernel

/-- R160, "A corrupted length byte": a length byte of 241 ends the frame with one error. -/
theorem test_length_byte :
    holds (fun s => s.link.rx == .hunt && s.link.errors == 1)
      (exec (.lengthByteAbove240 241) { fresh with link := { fresh.link with rx := .within 0 .len } }) = true := by decide +kernel

/-- R37: the deadline of a SYNC cycle of period 1000 comes 1125 µs after its start. -/
theorem test_deadline :
    ({ Engine.afterReset with mode := .sync, period := 1000 } : Engine).boundaryAfter 0 = 1125 := by decide

/-- R157: TXD is high with no frame; 0xA7 stands on it as a low start bit, then 1 1 1 0 0 1 0 1, then the high stop bit. -/
theorem test_txd :
    txdLevel rig = .high ∧
    (List.range 11).map (bitOnLine [0xA7]) = [.low, .high, .high, .high, .low, .low, .high, .low, .high, .high, .high] := by decide

/-- R168: the character that was under way as a hardware reset ended is not received. -/
theorem test_leftover_character :
    holds (fun s => s.link.rx == .hunt && s.link.front == .seeking)
      (exec (.byteTaken 0xA7) { fresh with link := { fresh.link with front := .leavingOut } }) = true := by decide

/-- R88: a QUEUE_PUT that is taken before an EMIT of its instant reports the fill once both have been taken: 3 + 1 − 1. -/
theorem test_put_then_emit :
    (let s := { rig with plans := { rig.plans with tableA := plan.setSlot 1 (some (slot 100 (.emit 0) (some 2))) } }
    match exec (.queuePut 1 [0, 9]) (sending 9999 s) with
    | .next s => replyBody (exec .stepFire s)
    | _ => []) = [0x00, 1, 3] := by decide +kernel

/-- R123, third point: a line that returns at the instant of a CHAN_EDGE taken before it is settled at the level it shows, with no debounce
and no record. -/
theorem test_return_after_chan_edge :
    (match exec (.chanEdge 1 [3, 2, 0]) (sending 9999 rig) with
    | .next s =>
      holds (fun t => match t.chan 3 with
        | .edge c => c.settled == 0 && c.debounces == noDebounces && c.queue.isEmpty
        | _ => false) (exec (.edgeLineChange 0) s)
    | _ => false) = true := by decide +kernel

/-- R121: a change found before the boundary of its instant is stamped with the cycle that the boundary begins, at cycle time 0, while a
record of an earlier run with the stamp it had keeps its own (R33, R68). -/
theorem test_boundary_stamps :
    (let old : EdgeRec := ⟨5, 1000, 0, .rise⟩
     let c := { edge3 with queue := [old], debounces := noDebounces }
     let s := { rig.setChan 3 (.edge c) with now := 6000, walk := Walk.absent }
     match exec (.edgeLineChange 0x10000) s with
     | .next s =>
       holds (fun t => match t.chan 3 with
         | .edge c => c.queue == [old] && c.debounces.get 0 == some ⟨6000, 6, 0, .high⟩
         | _ => false) (exec .periodBoundary s)
     | _ => false) = true := by decide +kernel

/-- Channel 3 with a debounce time of 0 and no debounce. -/
def promptEdge : EdgeChan := { edge3 with debounce := 0, debounces := noDebounces }

/-- The line of channel 3 rises at cycle time 150 of a SYNC cycle, with commands that wait at that instant. -/
def soon (mode : Mode) (waiting : List Instr) : State :=
  { sending 9999 (rig.setChan 3 (.edge promptEdge)) with
    now := 5150, engine := { rig.engine with mode := mode }, walk := Walk.absent, notices := NoticeUnit.emptied
    pending := .edgeLineChange 0x10000 :: .debounceConfirmed 3 :: waiting }

/-- The state after so many steps. -/
def after : Nat → State → Out
  | 0, s => .next s
  | n + 1, s => match step s with
    | .next t => after n t
    | o => o

/-- The records of channel 3. -/
def edges (s : State) : List EdgeRec :=
  match s.chan 3 with
  | .edge c => c.queue
  | _ => []

/-- R119: with debounce time 0 and nothing to meet, the change is confirmed at its own instant. -/
theorem test_confirmed_at_once : holds (fun t => edges t == [⟨5, 150, 0, .rise⟩]) (after 2 (soon .free [])) = true := by
  decide +kernel

/-- R115: a change of debounce time 0 that begins at the microsecond of a STOP NOW leaves no record. -/
theorem test_no_record_at_stop : holds (fun t => edges t == [] && !(t.chan 3).windowOpen) (after 3 (soon .free [.stop 7 [1]])) = true := by
  decide +kernel

/-- R121: one that begins at the microsecond of a SYNC edge is recorded with the cycle the edge begins, at cycle time 0 (the
step at offset 0 of that cycle fires first). -/
theorem test_record_after_edge :
    holds (fun t => edges t == [⟨6, 0, 0, .rise⟩]) (after 5 (soon .sync [.syncRisingEdge])) = true := by decide +kernel

/-- R117, R118: the sample at which the debounce time is reached finds the line back, so nothing is confirmed, also where the confirmation
is asked for before that sample is taken. -/
theorem test_glitch_at_the_last_sample :
    (let s : State := { sending 9999 (rig.setChan 3 (.edge edge3)) with
       now := 5130, walk := Walk.absent, pending := [.debounceConfirmed 3, .edgeLineChange 0] }
     holds (fun t => match t.chan 3 with
       | .edge c => c.queue == [] && c.debounces == noDebounces && c.settled == 0
       | _ => false) (after 2 s)) = true := by decide +kernel

/-- R51: the MARK of a second step of one offset waits behind the notice of the first while a third step of that offset is to fire. -/
theorem test_notices_of_one_offset_wait :
    (let first : Raised := ⟨.starved, some 0, 1, 5⟩
     let s : State := { rig with
       plans := { rig.plans with tableA := plan.setSlot 1 (some { slot 100 .mark (some 2) with tag := 77 }) }
       raising := [first] }
     holds (fun t => t.raising == [first, ⟨.mark, some 77, 1, 5⟩] && t.notices == rig.notices) (exec .stepFire s)) = true := by
  decide +kernel

/-! ### The hypotheses of the statements can be met -/

/-- A state whose last request was the frame `f`, answered with `r`. -/
def answered (f r : Frame) (s : State) : State := { s with link := { s.link with last := some (f, r) } }

theorem witness_StepRunsFrontCommand : ({ rig with pending := [.stepFire] } : State).pending = .stepFire :: [] := by decide

theorem witness_EmptyQueueCountsTime :
    (fresh.pending = [] ∧ dueEvents fresh = [] ∧ fresh.hwReset = none ∧ fresh.raising = []) ∧
    (let s : State := { fresh with hwReset := some .nreset }
     s.pending = [] ∧ s.hwReset.isSome = true) ∧
    (rig.pending = [] ∧ stepDue rig = true) ∧
    (let s : State := { fresh with raising := [⟨.mark, some 9, 0, 0⟩] }
     s.pending = [] ∧ dueEvents s = [] ∧ s.hwReset = none ∧ s.raising ≠ []) ∧
    (let s : State := { fresh with disp := { slot := .waiting ⟨7, 0x81, [0]⟩, softReset := false } }
     s.pending = [] ∧ dueEvents s = [] ∧ s.raising = [] ∧ s.link.tx = none ∧ s.disp.slot = .waiting ⟨7, 0x81, [0]⟩) ∧
    (let s : State := { fresh with notices := { NoticeUnit.emptied with queue := [readyEntry 0] } }
     dueEvents s = [] ∧ s.link.tx = none ∧ s.disp.slot = .empty ∧ (s.notices.offer s.now).isSome = true) ∧
    (let s : State := { fresh with notices := NoticeUnit.emptied }
     dueEvents s = [] ∧ s.disp.slot = .empty ∧ s.notices.offer s.now = none) := by decide +kernel

theorem witness_DuplicateAnsweredFromCache :
    let f : Frame := ⟨7, 0x01, []⟩
    let s := answered f ⟨7, 0x81, [0]⟩ rig
    requestFrame? (.identify 7 []) = some f ∧ canTake f s = true ∧ s.link.last = some (f, ⟨7, 0x81, [0]⟩) := by decide +kernel

theorem witness_WrongLengthRefused :
    (requestFrame? (.queuePut 7 [0]) = some ⟨7, 0x14, [0]⟩ ∧ TakenAsNew ⟨7, 0x14, [0]⟩ rig ∧
      bodyLengths? 0x14 = some (2, 113) ∧ [(0 : Byte)].length < 2) ∧
    (requestFrame? (.identify 7 [0]) = some ⟨7, 0x01, [0]⟩ ∧ TakenAsNew ⟨7, 0x01, [0]⟩ rig ∧
      bodyLengths? 0x01 = some (0, 0) ∧ 0 < [(0 : Byte)].length) := by decide +kernel

theorem witness_IdentifyResetAndUnknownKind :
    TakenAsNew ⟨7, 0x01, []⟩ rig ∧ TakenAsNew ⟨7, 0x03, []⟩ rig ∧
      (unknownKindCode 0x7F = true ∧ TakenAsNew ⟨7, 0x7F, [1]⟩ rig) := by decide +kernel

theorem witness_StatusReports :
    TakenAsNew ⟨7, 0x02, [0]⟩ rig ∧ TakenAsNew ⟨7, 0x02, [1]⟩ rig ∧ (TakenAsNew ⟨7, 0x02, [2]⟩ rig ∧ 2 ≤ (2 : Byte).toNat) := by
  decide +kernel

/-- The last byte of a reply goes out now; `pending` says whether a soft reset is pending. -/
def replyEnding (soft : Bool) : State :=
  { rig with
    link := { rig.link with tx := some { bytes := [0xA7], source := .reply, endsAt := 5100 } }
    disp := { slot := .inTransmission ⟨7, 0x83, [0]⟩, softReset := soft } }

theorem witness_ReplySentEmptiesSlotOrResets : ∀ soft : Bool,
    ((replyEnding soft).hwReset = none ∧
      (replyEnding soft).link.tx = some { bytes := [0xA7], source := .reply, endsAt := 5100 } ∧ (replyEnding soft).now = 5100 ∧
      (replyEnding soft).link.holding = none ∧ (replyEnding soft).disp.softReset = soft) ∧
    (let f : Frame := ⟨8, 0x01, []⟩
     let s := { replyEnding soft with link := { (replyEnding soft).link with holding := some f } }
     let freed := { s with link := { s.link with tx := none }, disp := { s.disp with slot := .empty } }
     requestFrame? (.identify 8 []) = some f ∧ s.link.holding = some f ∧ noticeReady freed = true ∧
       noticeReady { freed with notices := NoticeUnit.emptied } = false) := by decide +kernel

/-! Plans -/

def step47 : Step := { offset := 999999, action := .emit 15, tag := 255, next := some 47 }

theorem witness_StepPutWritesSlot :
    step47.offset ≤ 999999 ∧ rig.plans.swapPending = false ∧ TakenAsNew ⟨7, 0x08, stepBody 47 step47⟩ rig := by decide +kernel

theorem witness_StepPutRangeRefused :
    (TakenAsNew ⟨7, 0x08, [48, 0, 0, 0, 0, 4, 0xFF, 0, 0xFF]⟩ rig ∧ 47 < (48 : Byte).toNat) ∧
    (TakenAsNew ⟨7, 0x08, [0, 0x40, 0x42, 0x0F, 0, 4, 0xFF, 0, 0xFF]⟩ rig ∧
      999999 < (0x40 : Byte).toNat + 256 * (0x42 : Byte).toNat + 65536 * (0x0F : Byte).toNat + 16777216 * (0 : Byte).toNat) ∧
    (TakenAsNew ⟨7, 0x08, [0, 0, 0, 0, 0, 5, 0xFF, 0, 0xFF]⟩ rig ∧ 4 < (5 : Byte).toNat) ∧
    (TakenAsNew ⟨7, 0x08, [0, 0, 0, 0, 0, 4, 0, 0, 0xFF]⟩ rig ∧ (4 : Byte) = 4 ∧ (0 : Byte) ≠ 0xFF) ∧
    (TakenAsNew ⟨7, 0x08, [0, 0, 0, 0, 0, 3, 16, 0, 0xFF]⟩ rig ∧ (3 : Byte).toNat < 4 ∧ 15 < (16 : Byte).toNat) ∧
    (TakenAsNew ⟨7, 0x08, [0, 0, 0, 0, 0, 4, 0xFF, 0, 48]⟩ rig ∧ 47 < (48 : Byte).toNat ∧ (48 : Byte) ≠ 0xFF) := by
  decide +kernel

/-- The running machine with a swap pending: its standby plan is the empty one. -/
def swapping : State := { rig with plans := { rig.plans with swapPending := true } }

theorem witness_StandbyEdits :
    (47 < (48 : Byte).toNat ∧ (48 : Byte) ≠ 0xFF ∧ TakenAsNew ⟨7, 0x09, [48]⟩ rig ∧ TakenAsNew ⟨7, 0x0A, [48]⟩ rig) ∧
    rig.plans.swapPending = false ∧ TakenAsNew ⟨7, 0x09, [ixByte (47 : SlotIx)]⟩ rig ∧
      TakenAsNew ⟨7, 0x0A, [slotByte none]⟩ rig ∧ TakenAsNew ⟨7, 0x0B, []⟩ rig ∧ TakenAsNew ⟨7, 0x0C, []⟩ rig := by
  decide +kernel

theorem witness_EditsRefusedWhilePending :
    step47.offset ≤ 999999 ∧ swapping.plans.swapPending = true ∧ TakenAsNew ⟨7, 0x08, stepBody 47 step47⟩ swapping ∧
      TakenAsNew ⟨7, 0x09, [ixByte (47 : SlotIx)]⟩ swapping ∧ TakenAsNew ⟨7, 0x0A, [slotByte none]⟩ swapping ∧
      TakenAsNew ⟨7, 0x0B, []⟩ swapping ∧ TakenAsNew ⟨7, 0x0C, []⟩ swapping := by decide +kernel

theorem witness_PlanReadReports :
    (TakenAsNew ⟨7, 0x0D, [3, 47]⟩ rig ∧ (47 : Byte) = ixByte (47 : SlotIx) ∧ TableId.b = rig.plans.active.other) ∧
    (TakenAsNew ⟨7, 0x0D, [0, 47]⟩ rig ∧ (0 : Byte) = TableId.a.code) ∧
    (TakenAsNew ⟨7, 0x0D, [2, 0]⟩ rig ∧ TableId.a = rig.plans.active) ∧
    (TakenAsNew ⟨7, 0x0D, [4, 0]⟩ rig ∧ 3 < (4 : Byte).toNat) ∧ (TakenAsNew ⟨7, 0x0D, [0, 48]⟩ rig ∧ 47 < (48 : Byte).toNat) := by
  decide +kernel

/-- The machine with its engine STOPPED. -/
def stoppedRig : State :=
  { rig with engine := Engine.afterReset, walk := Walk.absent }

/-- The fault that validation finds in a plan. -/
def planFault (t : PlanTable) (period : Nat) (records : Vector Channel 16) : Option (PlanCheck × SlotIx) :=
  match validate t period records with
  | .error fault => some fault
  | .ok _ => none

theorem witness_CommitAndCancel :
    (TakenAsNew ⟨7, 0x0F, []⟩ swapping ∧ swapping.plans.swapPending = true) ∧
    (TakenAsNew ⟨7, 0x0F, []⟩ rig ∧ rig.plans.swapPending = false) ∧
    (TakenAsNew ⟨7, 0x0E, []⟩ swapping ∧ swapping.plans.swapPending = true) ∧
    (let s := { rig with plans := { rig.plans with tableB := { PlanTable.empty with head := some 47 } } }
     TakenAsNew ⟨7, 0x0E, []⟩ s ∧ s.plans.swapPending = false ∧
       planFault s.plans.standby s.engine.period s.chans.records = some (.brokenChain, 47)) ∧
    (TakenAsNew ⟨7, 0x0E, []⟩ rig ∧ (validate rig.plans.standby rig.engine.period rig.chans.records).toOption = some 0 ∧
      rig.engine.state ≠ .stopped) ∧
    (TakenAsNew ⟨7, 0x0E, []⟩ stoppedRig ∧
      (validate stoppedRig.plans.standby stoppedRig.engine.period stoppedRig.chans.records).toOption = some 0 ∧
      stoppedRig.engine.state = .stopped) := by decide +kernel

/-- The step in slot 47 of the plan, changed. -/
def plan47 (st : Option Step) : PlanTable := plan.setSlot 47 st

theorem witness_ValidationMeansPlanLaw :
    (validate plan 1000 rig.chans.records).toOption = some 4 ∧
    (∀ x ∈ ([(plan47 none, 1000, 3, 47), (plan47 (some (slot 900 .mark (some 0))), 1000, 4, 0), (plan, 900, 3, 47),
        (plan47 (some (slot 99 .mark none)), 1000, 3, 47), (plan47 (some (slot 900 (.emit 2) none)), 1000, 3, 47)]
        : List (PlanTable × Nat × Nat × SlotIx)),
      let path := x.1.chain.take x.2.2.1
      path <+: x.1.chain ∧ (match path.getLast? with | none => x.1.head | some y => y.2.next) = some x.2.2.2 ∧
        (path.map Prod.fst).Nodup ∧ (∀ y ∈ path, y.2.offset < x.2.1 ∧ fitsKind rig.chans.records y.2.action = true) ∧
        path.Pairwise fun y z => y.2.offset ≤ z.2.offset) ∧
    (plan47 none).slots.get 47 = none ∧ 0 ∈ ((plan47 (some (slot 900 .mark (some 0)))).chain.take 4).map Prod.fst ∧
    900 ≤ (slot 900 .mark none).offset ∧ (slot 99 .mark none).offset < (slot 100 .mark none).offset ∧
    fitsKind rig.chans.records (.emit 2) = false := by decide +kernel

/-! The engine -/

theorem witness_CycleSetOutcomes :
    (∀ x ∈ [(249, (0 : Byte)), (1000001, 0), (250, 2)], TakenAsNew ⟨7, 0x04, le32 x.1 ++ [x.2]⟩ rig ∧
      (x.1 < 250 ∨ 1000000 < x.1 ∨ 1 < x.2.toNat)) ∧
    (TakenAsNew ⟨7, 0x04, le32 250 ++ [1]⟩ rig ∧ rig.engine.state ≠ .stopped) ∧
    (TakenAsNew ⟨7, 0x04, le32 900 ++ [1]⟩ stoppedRig ∧ stoppedRig.engine.state = .stopped ∧
      ((stoppedRig.plans.activeTable.chain.find? fun y => decide (900 ≤ y.2.offset)).map Prod.fst) = some 47) ∧
    (TakenAsNew ⟨7, 0x04, le32 1000000 ++ [0]⟩ stoppedRig ∧
      ∀ x ∈ stoppedRig.plans.activeTable.chain, x.2.offset < 1000000) := by decide +kernel

/-- The machine STOPPED in SYNC mode, and ARMED. -/
def stoppedSync : State := { stoppedRig with engine := { Engine.afterReset with mode := .sync } }
def armedRig : State := { stoppedRig with engine := { Engine.afterReset with mode := .sync, state := .armed } }

theorem witness_StartOutcomes :
    (TakenAsNew ⟨7, 0x05, []⟩ rig ∧ rig.engine.state ≠ .stopped) ∧
    (TakenAsNew ⟨7, 0x05, []⟩ stoppedRig ∧ stoppedRig.engine.state = .stopped ∧ stoppedRig.engine.mode = .free) ∧
    (TakenAsNew ⟨7, 0x05, []⟩ stoppedSync ∧ stoppedSync.engine.state = .stopped ∧ stoppedSync.engine.mode = .sync) := by
  decide +kernel

theorem witness_StopOutcomes :
    (TakenAsNew ⟨7, 0x06, [2]⟩ rig ∧ 1 < (2 : Byte).toNat) ∧
    (TakenAsNew ⟨7, 0x06, [1]⟩ stoppedRig ∧ stoppedRig.engine.state = .stopped) ∧
    (TakenAsNew ⟨7, 0x06, [0]⟩ rig ∧ rig.engine.state = .running) ∧
    (TakenAsNew ⟨7, 0x06, [1]⟩ rig ∧ rig.engine.state = .running) ∧
    (TakenAsNew ⟨7, 0x06, [0]⟩ armedRig ∧ armedRig.engine.state = .armed) := by decide +kernel

/-- The running machine at the instant of its next internal boundary, in a mode and with a flywheel and a stop-pending flag; its walk
follows the active plan. -/
def atBoundary (mode : Mode) (flywheel stop : Bool) : State :=
  { rig with
    now := 6000
    engine := { rig.engine with mode := mode, flywheel := flywheel, stopPending := stop, nextBoundary := some 6000 } }

theorem atBoundary_walk (mode : Mode) (flywheel stop : Bool) : walkOnPlan (atBoundary mode flywheel stop) := by
  show EngineState.running = .running ∧ some TableId.a = some TableId.a ∧ some (5 : CycleNo) = some 5 ∧
    (plan.slots.get 1).isSome = true ∧ chainFrom plan 48 (some 1) <:+ plan.chain ∧ 3 = (chainFrom plan 48 (some 1)).length
  decide +kernel

theorem witness_BoundaryBeginsCycle :
    (∀ (mode : Mode) (flywheel : Bool),
      let s := atBoundary mode flywheel false
      s.hwReset = none ∧ s.engine.state = .running ∧ s.engine.stopPending = false ∧ s.engine.cycleStart = some 5000 ∧
        s.engine.mode = mode ∧ s.engine.flywheel = flywheel ∧ s.engine.nextBoundary = some s.now ∧ s.pins.sync = .low) ∧
    ∀ (mode : Mode) (flywheel : Bool), walkOnPlan (atBoundary mode flywheel false) :=
  ⟨fun mode flywheel => by cases mode <;> cases flywheel <;> decide +kernel, fun mode flywheel => atBoundary_walk mode flywheel false⟩

theorem witness_BoundaryWithStopPending : ∀ (mode : Mode) (flywheel : Bool),
    let s := atBoundary mode flywheel true
    s.hwReset = none ∧ s.engine.state = .running ∧ s.engine.stopPending = true ∧
      s.engine.mode = mode ∧ s.engine.flywheel = flywheel ∧ s.engine.nextBoundary = some s.now ∧ s.pins.sync = .low := by
  intro mode flywheel
  cases mode <;> cases flywheel <;> decide +kernel

theorem witness_SyncSamples :
    (armedRig.hwReset = none ∧ armedRig.pins.sync = .low ∧ armedRig.engine.mode = .sync ∧ armedRig.engine.state = .armed ∧
      armedRig.walk.pointer = none) ∧
    (rig.pins.sync = .low ∧ rig.engine.mode = .free) ∧ (stoppedSync.pins.sync = .low ∧ stoppedSync.engine.state = .stopped) ∧
    (({ rig with pins := { rig.pins with sync := .high } } : State).pins.sync = .high) := by decide +kernel

/-- The machine at an instant at which nothing of its own is due. -/
def between : State := { rig with now := 5101, pins := { rig.pins with lines := 0x10000 } }

theorem witness_CommandWithoutOccasion :
    (requestFrame? (.identify 7 []) = some ⟨7, 0x01, []⟩ ∧ canTake ⟨7, 0x01, []⟩ (replyEnding false) = false) ∧
    periodDue between = false ∧ deadlineDue between = false ∧ flywheelDue between = false ∧
    (stepDue between = false ∧ ∀ p, stepAtPointer between ≠ some (p, none)) ∧
    phaseDue .on 1 between = false ∧ phaseDue .off 1 between = false ∧ debounceDue 3 between = false ∧
    silenceDue between = false ∧ retransmitDue between = false ∧ gapDue between = false ∧
    frameDue .reply between = false ∧ frameDue .notice between = false := by decide +kernel

/-! The walker -/

/-- The machine with another step due at the pointer. -/
def firing (action : Action) : State :=
  { rig with plans := { rig.plans with tableA := plan.setSlot 1 (some (slot 100 action (some 2))) } }

theorem firing_fires (action : Action) : FiresNow 1 (slot 100 action (some 2)) (firing action) := ⟨rfl, rfl⟩

/-- A QUEUE_PUT on channel 0 has been carried out at this instant. -/
def putNow (s : State) : State := { s with putAt := some (s.now, 0) }

theorem witness_EmitOnLevelChannel :
    (slot 100 (.emit 0) (some 2)).action = .emit 0 ∧ (firing (.emit 0)).chan 0 = .level level0 ∧
    (firing (.emit 0)).safe.safe = false ∧ level0.queue = 1 :: [2, 3] ∧
    (({ firing (.emit 0) with safe := { rig.safe with safe := true } } : State).safe.safe = true) ∧
    (((firing (.emit 0)).setChan 0 (.level { level0 with queue := [] })).chan 0 = .level { level0 with queue := [] }) ∧
    (rig.putAt ≠ some (rig.now, 0)) ∧
    (let s := answered ⟨7, 0x14, [0, 9]⟩ ⟨7, 0x94, [0, 1, 3]⟩ (putNow rig)
     s.putAt = some (s.now, 0) ∧ s.link.last = some (⟨7, 0x14, [0, 9]⟩, ⟨7, 0x94, [0, 1, 3]⟩) ∧ s.disp.slot = .empty) := by
  decide +kernel

theorem witness_EmitOnBurstChannel :
    FiresNow 1 (slot 100 (.emit 1) (some 2)) rig ∧ rig.chan 1 = .burst burst1 ∧ rig.safe.safe = false ∧ burst1.burst.isSome = true ∧
    (let c := { burst1 with burst := none }
     let s := rig.setChan 1 (.burst c)
     FiresNow 1 (slot 100 (.emit 1) (some 2)) s ∧ s.chan 1 = .burst c ∧ c.burst = none ∧ c.queue = burstRec :: []) ∧
    (let c := { burst1 with burst := none, queue := [] }
     let s := rig.setChan 1 (.burst c)
     s.chan 1 = .burst c ∧ c.queue = []) ∧
    (({ rig with safe := { rig.safe with safe := true } } : State).safe.safe = true) := by decide +kernel

theorem witness_SampleFires :
    (slot 100 (.sample 2) (some 2)).action = .sample 2 ∧ (firing (.sample 2)).chan 2 = .sample sample2 ∧
    sample2.queue.length < sample2.cfg.depth ∧
    (let c := { sample2 with queue := List.replicate 4 ⟨0, 7, 1⟩ }
     ((firing (.sample 2)).setChan 2 (.sample c)).chan 2 = .sample c ∧ c.cfg.depth ≤ c.queue.length) := by decide +kernel

theorem witness_WindowAndMarkStepsFire :
    ((firing (.openWindow 3)).chan 3 = .edge edge3 ∧ (slot 100 (.openWindow 3) (some 2)).action = .openWindow 3) ∧
    ((firing (.closeWindow 3)).chan 3 = .edge edge3 ∧ (slot 100 (.closeWindow 3) (some 2)).action = .closeWindow 3) ∧
    (slot 100 .mark (some 2)).action = .mark := by decide +kernel

/-! Channels -/

/-- A configuration for the free channel 15 on the free lines P3.0 to P3.7 with the greatest depth and mark. -/
def setup15 : Setup :=
  .level { run := { port := 3, first := 0, width := 8 }, depth := 128, mark := 127, idle := 255, safe := 0, starve := .idle }

theorem witness_ChanSetInstalls :
    setup15.fits = true ∧ TakenAsNew ⟨7, 0x10, setupBody 15 1 2 3 setup15⟩ rig ∧ rig.plans.referenced 15 = false ∧
    (∀ n : Fin 32, setup15.run.covers n.val = true → rig.chans.lineMap.get n = none ∨ rig.chans.lineMap.get n = some 15) ∧
    setup15.depth ≤ rig.chans.freeCount + (rig.chan 15).places := by decide +kernel

/-- A configuration whose lines belong to other channels, and one that asks for more than the pool has. -/
def setupTaken : Setup := .sample { run := { port := 0, first := 3, width := 2 }, depth := 4, mark := 1, full := .keepOld }

theorem witness_ChanSetRefusals :
    (setupTaken.fits = true ∧ TakenAsNew ⟨7, 0x10, setupBody 0 1 2 3 setupTaken⟩ rig ∧ rig.plans.referenced 0 = true) ∧
    (TakenAsNew ⟨7, 0x10, setupBody 15 1 2 3 setupTaken⟩ rig ∧ rig.plans.referenced 15 = false ∧
      setupTaken.run.covers 3 = true ∧ rig.chans.lineMap.get 3 = some 0 ∧ (0 : ChanIx) ≠ 15 ∧
      ∀ m : Fin 32, m < 3 → setupTaken.run.covers m.val = true →
        rig.chans.lineMap.get m = none ∨ rig.chans.lineMap.get m = some 15) ∧
    (let s := { rig with chans := { rig.chans with freeCount := 127 } }
     setup15.fits = true ∧ TakenAsNew ⟨7, 0x10, setupBody 15 1 2 3 setup15⟩ s ∧ s.plans.referenced 15 = false ∧
     (∀ n : Fin 32, setup15.run.covers n.val = true → s.chans.lineMap.get n = none ∨ s.chans.lineMap.get n = some 15) ∧
     s.chans.freeCount + (s.chan 15).places < setup15.depth) := by decide +kernel

theorem witness_ChanSetRangeRefused :
    (∀ body ∈ ([[16, 1, 0, 0, 8, 4, 3, 255, 255, 1, 0, 0, 0], [15, 0, 0, 0, 8, 4, 3, 0, 0, 0, 0, 0, 0],
        [15, 2, 0, 0, 8, 4, 4, 0, 0, 0, 0, 0, 0], [15, 3, 0, 0, 8, 128, 129, 0, 0, 0, 0, 0, 0],
        [15, 4, 3, 7, 1, 128, 128, 0, 0, 0, 1, 3, 0]] : List (List Byte)), TakenAsNew ⟨7, 0x10, body⟩ rig) ∧
    15 < (16 : Byte).toNat ∧ (4 : Byte).toNat - 1 < (4 : Byte).toNat ∧ (128 : Byte).toNat < (129 : Byte).toNat ∧
    2 < (3 : Byte).toNat := by decide +kernel

theorem witness_InstallAndReplace :
    (4 : ChanIx) ≠ 3 ∧ ({ port := 3, first := 7, width := 1 } : Run).fits = true ∧
    rig.chans.lineMap.get 31 = none ∧ (rig.chans.lineMap.get 3 = some 0 ∧ rig.chan 0 = .level level0) ∧
    (rig.chans.lineMap.get 5 = some 1 ∧ rig.chan 1 = .burst burst1) ∧
    (rig.chans.lineMap.get 15 = some 2 ∧ rig.chan 2 = .sample sample2) ∧
    (rig.chans.lineMap.get 16 = some 3 ∧ rig.chan 3 = .edge edge3) := by decide +kernel

theorem witness_ReleaseAndFlush :
    (15 < (16 : Byte).toNat ∧ TakenAsNew ⟨7, 0x11, [16]⟩ rig ∧ TakenAsNew ⟨7, 0x16, [16]⟩ rig) ∧
    (rig.chan 15 = .free ∧ TakenAsNew ⟨7, 0x11, [ixByte (15 : ChanIx)]⟩ rig ∧ TakenAsNew ⟨7, 0x16, [ixByte (15 : ChanIx)]⟩ rig) ∧
    (rig.chan 0 ≠ .free ∧ TakenAsNew ⟨7, 0x11, [ixByte (0 : ChanIx)]⟩ rig ∧ rig.plans.referenced 0 = true) ∧
    (let s := { rig with plans := PlanStore.afterReset }
     s.chan 0 ≠ .free ∧ TakenAsNew ⟨7, 0x11, [ixByte (0 : ChanIx)]⟩ s ∧ s.plans.referenced 0 = false) := by decide +kernel

theorem witness_ChanReadReports :
    (TakenAsNew ⟨7, 0x12, [16, 0]⟩ rig ∧ 15 < (16 : Byte).toNat) ∧ (TakenAsNew ⟨7, 0x12, [0, 2]⟩ rig ∧ 1 < (2 : Byte).toNat) ∧
    (TakenAsNew ⟨7, 0x12, [15, 1]⟩ rig ∧ (15 : Byte) = ixByte (15 : ChanIx) ∧ (1 : Byte).toNat ≤ 1) := by decide +kernel

/-! Output channels -/

theorem witness_QueuePutLevels :
    (rig.chan 0 = .level level0 ∧ TakenAsNew ⟨7, 0x14, ixByte (0 : ChanIx) :: [255]⟩ rig) ∧
    (1 ≤ (List.replicate 16 (1 : Byte)).length ∧ (List.replicate 16 (1 : Byte)).length ≤ 16 ∧
      TakenAsNew ⟨7, 0x14, ixByte (0 : ChanIx) :: List.replicate 16 1⟩ rig) := by decide +kernel

theorem witness_QueuePutBursts :
    (let rs := List.replicate 16 burstRec
     1 ≤ rs.length ∧ rs.length ≤ 16 ∧ rig.chan 1 = .burst burst1 ∧ (∀ r ∈ rs, r.fits = true) ∧
       TakenAsNew ⟨7, 0x14, ixByte (1 : ChanIx) :: rs.flatMap BurstRec.bytes⟩ rig) ∧
    (let rs := [burstRec, { burstRec with onTime := 0 }]
     (∃ r ∈ rs, r.count = 0 ∨ r.onTime = 0 ∨ r.offTime = 0) ∧
       TakenAsNew ⟨7, 0x14, ixByte (1 : ChanIx) :: rs.flatMap BurstRec.bytes⟩ rig) := by decide +kernel

theorem witness_QueuePutRefusals :
    (TakenAsNew ⟨7, 0x14, 16 :: [1]⟩ rig ∧ 15 < (16 : Byte).toNat) ∧
    (TakenAsNew ⟨7, 0x14, 15 :: [1]⟩ rig ∧ (15 : Byte) = ixByte (15 : ChanIx) ∧ rig.chan 15 = .free) ∧
    (TakenAsNew ⟨7, 0x14, 2 :: [1]⟩ rig ∧ rig.chan 2 = .sample sample2) ∧
    (TakenAsNew ⟨7, 0x14, 3 :: [1]⟩ rig ∧ rig.chan 3 = .edge edge3) ∧
    (TakenAsNew ⟨7, 0x14, 0 :: List.replicate 17 1⟩ rig ∧ rig.chan 0 = .level level0 ∧
      16 < (List.replicate 17 (1 : Byte)).length) ∧
    (TakenAsNew ⟨7, 0x14, 1 :: List.replicate 8 1⟩ rig ∧ rig.chan 1 = .burst burst1 ∧
      (List.replicate 8 (1 : Byte)).length % 7 ≠ 0) := by decide +kernel

theorem witness_BurstPhaseEnds : ∀ b ∈ [({ played := burstRec, remaining := 1, phase := .on, phaseEnd := 5100 } : Burst),
      { played := burstRec, remaining := 2, phase := .off, phaseEnd := 5100 },
      { played := burstRec, remaining := 1, phase := .off, phaseEnd := 5100 }],
    let c := { burst1 with burst := some b }
    let s := rig.setChan 1 (.burst c)
    s.hwReset = none ∧ s.chan 1 = .burst c ∧ c.burst = some b ∧ b.phaseEnd = s.now := by decide +kernel

/-! Input channels -/

theorem witness_ChanEdgeOutcomes :
    (TakenAsNew ⟨7, 0x13, [16, 0, 0]⟩ rig ∧ 15 < (16 : Byte).toNat) ∧ (TakenAsNew ⟨7, 0x13, [3, 3, 0]⟩ rig ∧ 2 < (3 : Byte).toNat) ∧
    (TakenAsNew ⟨7, 0x13, [15, 2, 255]⟩ rig ∧ (15 : Byte) = ixByte (15 : ChanIx) ∧ (2 : Byte) = EdgeSelect.both.code ∧
      rig.chan 15 = .free) ∧
    (TakenAsNew ⟨7, 0x13, [0, 0, 0]⟩ rig ∧ rig.chan 0 = .level level0) ∧
    (TakenAsNew ⟨7, 0x13, [1, 0, 0]⟩ rig ∧ rig.chan 1 = .burst burst1) ∧
    (TakenAsNew ⟨7, 0x13, [2, 0, 0]⟩ rig ∧ rig.chan 2 = .sample sample2) ∧
    (TakenAsNew ⟨7, 0x13, [3, 1, 255]⟩ rig ∧ (1 : Byte) = EdgeSelect.fall.code ∧ rig.chan 3 = .edge edge3) := by decide +kernel

theorem witness_QueueTakeOutcomes :
    (TakenAsNew ⟨7, 0x15, [16, 1]⟩ rig ∧ 15 < (16 : Byte).toNat) ∧ (TakenAsNew ⟨7, 0x15, [2, 0]⟩ rig ∧ (0 : Byte).toNat < 1) ∧
    (TakenAsNew ⟨7, 0x15, [2, 17]⟩ rig ∧ 16 < (17 : Byte).toNat) ∧
    (TakenAsNew ⟨7, 0x15, [15, 16]⟩ rig ∧ (15 : Byte) = ixByte (15 : ChanIx) ∧ rig.chan 15 = .free) ∧
    (TakenAsNew ⟨7, 0x15, [0, 1]⟩ rig ∧ rig.chan 0 = .level level0) ∧
    (TakenAsNew ⟨7, 0x15, [1, 1]⟩ rig ∧ rig.chan 1 = .burst burst1) ∧
    (TakenAsNew ⟨7, 0x15, [2, 16]⟩ rig ∧ rig.chan 2 = .sample sample2) ∧
    (TakenAsNew ⟨7, 0x15, [3, 1]⟩ rig ∧ rig.chan 3 = .edge edge3) := by decide +kernel

theorem witness_EdgeLineSamples :
    rig.hwReset = none ∧ (rig.chan 0).windowOpen = false ∧ rig.chan 3 = .edge edge3 ∧ edge3.window = .opened := by decide +kernel

/-- The machine with channel 3 changed, 30 µs later: the debounce on its line has lasted 50 µs. -/
def confirming (c : EdgeChan) : State := { rig.setChan 3 (.edge c) with now := 5130 }

/-- Channel 3 with a debounce time of 0 and a debounce begun at cycle time 130. -/
def edgeAtOnce : EdgeChan :=
  { edge3 with debounce := 0, debounces := (Vector.replicate 8 none).set 0 (some { edgeDebounce with began := 5130, offset := 130 }) }

theorem witness_DebounceConfirms :
    (∀ c ∈ [edge3, { edge3 with select := .fall }, { edge3 with queue := List.replicate 4 ⟨0, 0, 0, .rise⟩ }, edgeAtOnce],
      (confirming c).hwReset = none ∧ (confirming c).chan 3 = .edge c ∧ c.window = .opened ∧
        (boundaryDue (confirming c) = false ∧ stepDue (confirming c) = false ∧ (confirming c).link.holding = none ∧
          (confirming c).pending = [] ∧ framesToCome (confirming c) = []) ∧
        ((0 : Fin 8).val < c.cfg.run.width ∧ levelOf (c.cfg.run.read (confirming c).pins.lines) 0 = .high)) ∧
    (edge3.debounces.get 0 = some edgeDebounce ∧ edgeDebounce.began + edge3.debounce = 5130 ∧ edgeDebounce.level = .high) ∧
    (edgeAtOnce.debounces.get 0 = some { edgeDebounce with began := 5130, offset := 130 } ∧
      5130 + edgeAtOnce.debounce = 5130) ∧
    (let s : State := { confirming edgeAtOnce with engine := { rig.engine with mode := .sync } }
     (edgeAtOnce.debounce = 0 ∧ s.engine.mode = .sync ∧ .syncRisingEdge ∈ ({ s with pending := [.syncRisingEdge] } : State).pending) ∧
     .stop 9 [1] ∈ ({ s with pending := [.stop 9 [1]] } : State).pending ∧
     (⟨9, 0x06, [1]⟩ : Frame) ∈ framesToCome { s with pending := (Frame.bytes ⟨9, 0x06, [1]⟩).map .byteTaken } ∧
     (let t : State := { s with link := { (replyEnding false).link with
        tx := some { bytes := [0xA7], source := .reply, endsAt := 5130 }, holding := some ⟨9, 0x06, [1]⟩ } }
      frameDue .reply t = true ∧ t.link.holding = some ⟨9, 0x06, [1]⟩) ∧
     boundaryDue { s with engine := { s.engine with nextBoundary := some 5130 } } = true ∧
     stepDue { s with now := 5100 } = true) ∧
    (let s : State := { confirming edge3 with pending := [.edgeLineChange 0] }
     .edgeLineChange 0 ∈ s.pending ∧ edge3.debounces.get 0 = some edgeDebounce ∧ edgeDebounce.began + edge3.debounce = s.now ∧
       levelOf (edge3.cfg.run.read s.pins.lines) 0 = edgeDebounce.level ∧ levelOf (edge3.cfg.run.read 0) 0 ≠ edgeDebounce.level) :=
  by decide +kernel

/-! The safe state -/

/-- The machine in the safe state for the host's request. -/
def safeRig : State :=
  { rig with
    safe := { rig.safe with safe := true, causes := { CauseSet.none with request := true }, safeOut := .low, period := 10
                            timer := some 5100 }
    chans := rig.chans.mapRecords Channel.toSafe }

theorem witness_CausesEnterSafe :
    (safeRig.hwReset = none ∧ safeRig.safe.safe = true ∧ TakenAsNew ⟨7, 0x18, []⟩ safeRig ∧ safeRig.safe.causes.stopLine = false ∧
      safeRig.safe.timer = some safeRig.now) ∧
    (rig.hwReset = none ∧ rig.safe.safe = false ∧ TakenAsNew ⟨7, 0x18, []⟩ rig ∧ rig.safe.causes.stopLine = false) ∧
    (let s := { rig with safe := { rig.safe with timer := some 5100 } }
     s.safe.timer = some s.now ∧ s.safe.safe = false) ∧
    (let s := { safeRig with safe := { safeRig.safe with causes := { CauseSet.none with stopLine := true } } }
     s.hwReset = none ∧ s.safe.causes.stopLine = true) := by decide +kernel

theorem witness_ResumeAndSilenceSet :
    (TakenAsNew ⟨7, 0x19, []⟩ rig ∧ rig.safe.nstop = .high) ∧
    (let s := { rig with safe := { rig.safe with nstop := .low } }
     TakenAsNew ⟨7, 0x19, []⟩ s ∧ s.safe.nstop = .low) ∧
    (∀ p ∈ [0, 10, 60000], p < 65536 ∧ TakenAsNew ⟨7, 0x1A, le16 p⟩ rig ∧ (p = 0 ∨ (10 ≤ p ∧ p ≤ 60000))) ∧
    (∀ p ∈ [1, 9, 60001, 65535], p < 65536 ∧ TakenAsNew ⟨7, 0x1A, le16 p⟩ rig ∧ (1 ≤ p ∧ p ≤ 9 ∨ 60000 < p)) := by
  decide +kernel

/-! Notices -/

def entry (kind : NoticeKind) (subject : Byte) (state : SendState) : Notice :=
  { kind := kind, subject := some subject, count := 1, cycle := 0, detail := 0, state := state }

def fifteen : List Notice := List.ofFn fun i : Fin 15 => entry .mark (byteOf i.val) .unsent

theorem witness_NoticeTaken :
    let r : Raised := { kind := .mark, subject := some 20, detail := 0, cycle := 1 }
    (let e := entry .mark 20 .unsent
     e.state = .unsent ∧ e.kind = r.kind ∧ e.subject = r.subject ∧
       ∀ x ∈ [entry .mark 20 (.sent 0 false)], ¬ (x.state = .unsent ∧ x.kind = r.kind ∧ x.subject = r.subject)) ∧
    ((∀ x ∈ fifteen, ¬ (x.state = .unsent ∧ x.kind = r.kind ∧ x.subject = r.subject)) ∧
      (fifteen.tail.filter fun e => e.kind != .overflow).length < 15 ∧
      15 ≤ (fifteen.filter fun e => e.kind != .overflow).length ∧ (∀ e ∈ fifteen, e.kind ≠ .overflow)) ∧
    (∀ state ∈ [SendState.unsent, .sent 3 false],
      let e := { overflowEntry 1 0 with state := state }
      (∀ x ∈ fifteen ++ [e], ¬ (x.state = .unsent ∧ x.kind = r.kind ∧ x.subject = r.subject)) ∧ e.kind = .overflow) := by
  decide +kernel

theorem witness_NoticeOffered :
    (let e := entry .mark 1 (.sent 3 true)
     e.state = .sent 3 true ∧ ∀ x ∈ [entry .mark 1 (.sent 2 false)], ∀ num, x.state ≠ .sent num true) ∧
    (let q := [0, 1, 2, 3].map fun n => entry .mark n (.sent n false)
     4 ≤ (q.filter fun e => e.state != .unsent).length ∧ (∀ x ∈ q, x.state ≠ .unsent) ∧
       ∀ x ∈ q, x.resendIsDue = false) ∧
    (let front := [0, 1, 2].map fun n => entry .mark n (.sent n false)
     (∀ x ∈ front, x.state ≠ .unsent) ∧ (entry .mark 9 .unsent).state = .unsent ∧
       ((front ++ [entry .mark 9 .unsent]).filter fun e => e.state != .unsent).length < 4) := by
  refine ⟨⟨rfl, ?_⟩, ?_, ?_⟩
  · intro x hx num
    simp only [List.mem_singleton] at hx
    subst hx
    simp [entry]
  · decide +kernel
  · decide +kernel

theorem witness_AckTaken :
    (∀ e ∈ [entry .mark 1 .unsent], e.hasNumber 0 = false) ∧
    (let front := [entry .mark 1 (.sent 0 false)]
     let e := { overflowEntry 3 0 with state := .sent 1 true }
     e.hasNumber 1 = true ∧ ∀ x ∈ front, x.hasNumber 1 = false ∧ x.state ≠ .unsent) := by decide +kernel

theorem witness_RetransmitAndNoticeEnd :
    (let s := { rig with now := 60000 }
     s.hwReset = none ∧ s.notices.timer = some s.now) ∧
    (let s := { sending 5100 rig with disp := { slot := .waiting ⟨7, 0x81, [0]⟩, softReset := false } }
     s.link.tx = some { bytes := [0xA7], source := .notice, endsAt := 5100 } ∧ s.now = 5100 ∧
       s.disp.slot = .waiting ⟨7, 0x81, [0]⟩) ∧
    ((sending 5100 rig).link.tx = some { bytes := [0xA7], source := .notice, endsAt := 5100 } ∧
      (sending 5100 rig).disp.slot = .empty) := by decide +kernel

/-! The link -/

/-- The machine with its receiver in a state. -/
def receiving (r : Receiver) (s : State) : State := setRx r s

theorem witness_FrameBytesReadBack :
    ((List.replicate 240 (1 : Byte)).length ≤ 240 ∧ rig.link.rx = .hunt ∧ rig.link.tx = none) ∧
    (let s := sending 5143 rig
     s.link.tx = some { bytes := [0xA7], source := .notice, endsAt := 5100 + 1 * 10000000 / 230400 } ∧ 5100 ≤ s.now ∧
       (s.now - 5100) * 230400 / 1000000 = 10 * 0 + 0 ∧ (5143 - 5100) * 230400 / 1000000 = 10 * 0 + 9) := by decide +kernel

theorem witness_CharactersReceived :
    (rig.hwReset = none ∧ rig.clearedAt ≠ some rig.now ∧ rig.link.front ≠ .leavingOut ∧ rig.link.rx = .hunt) ∧
    ({ rig.link with front := .leavingOut } : HostLink).front = .leavingOut ∧
    ((receiving (.within 5090 .len) rig).link.rx = .within 5090 .len ∧ 240 < (241 : Byte).toNat ∧ (240 : Byte).toNat ≤ 240) ∧
    (3099 + 2001 = (receiving (.within 3099 (.seq 5)) rig).now ∧
      (receiving (.within 3099 (.seq 5)) rig).link.rx = .within 3099 (.seq 5)) := by decide +kernel

/-- The receiver waits for the second CRC byte of a frame. -/
def lastByte (f : Frame) (s : State) : State :=
  receiving (.within 5090 (.check (byteOf f.body.length) f.seq f.kind f.body (some (byteOf (crc f.covered).toNat)))) s

/-- The second CRC byte of a frame. -/
def highByte (f : Frame) : Byte := byteOf ((crc f.covered).toNat / 256)

/-- A frame's CRC is what its two CRC bytes say. -/
def goodFrame (f : Frame) : Bool :=
  (crc f.covered).toNat == (byteOf (crc f.covered).toNat).toNat + 256 * (highByte f).toNat

theorem witness_CompleteFrames :
    (rig.hwReset = none ∧ rig.clearedAt ≠ some rig.now ∧ rig.link.front ≠ .leavingOut) ∧
    (goodFrame ⟨7, 0x80, []⟩ = true ∧ 128 ≤ (0x80 : Byte).toNat) ∧
    (goodFrame ⟨7, 0x40, [3]⟩ = true ∧ goodFrame ⟨7, 0x40, []⟩ = true) ∧
    ((crc (⟨7, 0x01, []⟩ : Frame).covered).toNat ≠
      (byteOf (crc (⟨7, 0x01, []⟩ : Frame).covered).toNat).toNat + 256 * (highByte ⟨7, 0x01, []⟩ + 1).toNat) ∧
    (goodFrame ⟨7, 0x01, []⟩ = true ∧ (0x01 : Byte).toNat < 128 ∧ (0x01 : Byte) ≠ 0x40 ∧ (replyEnding false).disp.slot ≠ .empty ∧
      (replyEnding false).link.holding = none) := by decide +kernel

theorem witness_RequestFrameTakenAtOnce :
    let f : Frame := ⟨7, 0x01, []⟩
    let s := lastByte f rig
    requestFrame? (.identify 7 []) = some f ∧ s.hwReset = none ∧ s.link.front ≠ .leavingOut ∧ goodFrame f = true ∧ s.link.holding = none ∧
      s.disp.slot = .empty ∧
      s.link.rx = .within 5090 (.check 0 f.seq f.kind f.body (some (byteOf (crc f.covered).toNat))) := by decide +kernel

theorem witness_HardwareResets :
    (({ rig with hwReset := some .nreset } : State).hwReset = some .nreset) ∧ rig.hwReset = none ∧
    (∀ levels, Instr.byteTaken 0xA5 ≠ .edgeLineChange levels) ∧ (∀ cause, Instr.byteTaken 0xA5 ≠ .hardwareResetBegin cause) ∧
    ∀ samples midCharacter, Instr.byteTaken 0xA5 ≠ .hardwareResetEnd samples midCharacter := by
  refine ⟨by decide +kernel, by decide +kernel, ?_, ?_, ?_⟩ <;> intros <;> simp

/-! The laws: the running machine meets each of them and takes a step. -/

theorem rig_steps : ∃ t, step { rig with pending := [.identify 7 []] } = .next t := ⟨_, rfl⟩

/-- The running machine with a command at the front of its queue. -/
def commanded (c : Instr) : State := { rig with pending := [c] }

theorem rig_plan_law (c : Instr) : PlanLaw (commanded c) := by
  have walk : walkOnPlan rig := by
    show EngineState.running = .running ∧ some TableId.a = some TableId.a ∧ some (5 : CycleNo) = some 5 ∧
      (plan.slots.get 1).isSome = true ∧ chainFrom plan 48 (some 1) <:+ plan.chain ∧ 3 = (chainFrom plan 48 (some 1)).length
    decide +kernel
  have valid : rig.plans.activeTable.valid rig.engine.period rig.chans.records = true ∧ rig.plans.swapPending = false := by
    decide +kernel
  exact ⟨valid.1, fun h => absurd (valid.2.symm.trans h) (by decide), walk⟩

theorem witness_PlanLawKept : PlanLaw (commanded (.identify 7 [])) := rig_plan_law _

theorem witness_PlanLawExcludesFaults : PlanLaw (commanded .stepFire) := rig_plan_law _

theorem witness_EngineLawKept : EngineLaw (commanded (.identify 7 [])) := by unfold EngineLaw; decide +kernel

theorem witness_ChannelLawKept :
    EngineLaw (commanded .stepFire) ∧ TimeLaw (commanded .stepFire) ∧ ChannelLaw (commanded .stepFire) := by
  unfold EngineLaw TimeLaw ChannelLaw notPast; decide +kernel

theorem witness_SafeLawKept : SafeLaw (commanded (.identify 7 [])) := by unfold SafeLaw; decide +kernel

theorem witness_NoticeLawKept : NoticeLaw (commanded (.identify 7 [])) := by unfold NoticeLaw; decide +kernel

theorem witness_LinkLawKept : LinkLaw (commanded (.identify 7 [])) := by
  unfold LinkLaw
  exact ⟨trivial, by decide +kernel⟩

theorem witness_TimeLawKept : PlanLaw (commanded .stepFire) ∧ TimeLaw (commanded .stepFire) :=
  ⟨rig_plan_law _, by unfold TimeLaw notPast; decide +kernel⟩

theorem witness_DebounceLawKept : DebounceLaw (commanded (.identify 7 [])) := by unfold DebounceLaw; decide +kernel

end Sys2Proof.Tests
end

section
/-! PROOFS. Chains of steps and their validation (R3, R13, R14): the walk of `validate` is tied to the chain it walks, and the plan
law says of every step on the chain what the checks say. -/

namespace Sys2Proof.Machine

/-! ### The chain from a slot on -/

@[simp] theorem chainFrom_end (t : PlanTable) (n : Nat) : chainFrom t n none = [] := by cases n <;> rfl

theorem chainFrom_emptySlot {t : PlanTable} {p : SlotIx} (h : t.slots.get p = none) (n : Nat) :
    chainFrom t n (some p) = [] := by
  cases n <;> simp [chainFrom, h]

theorem chainFrom_filledSlot {t : PlanTable} {p : SlotIx} {st : Step} (h : t.slots.get p = some st) (n : Nat) :
    chainFrom t (n + 1) (some p) = (p, st) :: chainFrom t n st.next := by
  simp [chainFrom, h]

/-- A chain from a link comes to END: its last step has no next, and only the link END has no chain. -/
def EndsAtEnd (p : Option SlotIx) (c : List (SlotIx × Step)) : Prop :=
  (c.getLast?.map fun x => x.2.next) = p.map fun _ => none

theorem endsAtEnd_end : EndsAtEnd none [] := rfl

theorem not_endsAtEnd_nil (p : SlotIx) : ¬ EndsAtEnd (some p) [] := by simp [EndsAtEnd]

/-- A chain comes to END when the chain from its second slot on does. -/
theorem endsAtEnd_cons {t : PlanTable} {p : SlotIx} {st : Step} {n : Nat} :
    EndsAtEnd (some p) ((p, st) :: chainFrom t n st.next) ↔ EndsAtEnd st.next (chainFrom t n st.next) := by
  cases hn : st.next with
  | none => simp [EndsAtEnd, hn]
  | some q =>
    cases hc : chainFrom t n (some q) with
    | nil => simp [EndsAtEnd, hn]
    | cons x xs => simp [EndsAtEnd, List.getLast?_cons]

/-- A chain that comes to END does not depend on how many links it may follow. -/
theorem chainFrom_of_endsAtEnd {t : PlanTable} {n m : Nat} {p : Option SlotIx} (he : EndsAtEnd p (chainFrom t n p))
    (hm : (chainFrom t n p).length ≤ m) : chainFrom t m p = chainFrom t n p := by
  induction n generalizing m p with
  | zero =>
    cases p with
    | none => simp
    | some p => exact absurd he (not_endsAtEnd_nil p)
  | succ n ih =>
    cases p with
    | none => simp
    | some p =>
      cases hp : t.slots.get p with
      | none => rw [chainFrom_emptySlot hp] at he; exact absurd he (not_endsAtEnd_nil p)
      | some st =>
        rw [chainFrom_filledSlot hp] at he hm ⊢
        cases m with
        | zero => simp at hm
        | succ m => rw [chainFrom_filledSlot hp, ih (endsAtEnd_cons.1 he) (by simpa using hm)]

/-- The link behind the last step of a path that begins at a link. -/
def linkAfter (p : Option SlotIx) (path : List (SlotIx × Step)) : Option SlotIx :=
  match path.getLast? with
  | none => p
  | some x => x.2.next

@[simp] theorem linkAfter_nil (p : Option SlotIx) : linkAfter p [] = p := rfl

@[simp] theorem linkAfter_cons (p : Option SlotIx) (x : SlotIx × Step) (path : List (SlotIx × Step)) :
    linkAfter p (x :: path) = linkAfter x.2.next path := by
  cases path with
  | nil => rfl
  | cons y ys => simp [linkAfter, List.getLast?_cons]

/-! ### What the checks say of a chain -/

/-- The checks of R14 on a chain whose slots are filled, behind the slots already visited and the offset before it. -/
def PassesAfter (period : Nat) (records : Vector Channel 16) (visited : List SlotIx) (previous : Nat)
    (c : List (SlotIx × Step)) : Prop :=
  (c.map Prod.fst).Nodup ∧
  (∀ x ∈ c, x.1 ∉ visited ∧ previous ≤ x.2.offset ∧ x.2.offset < period ∧ fitsKind records x.2.action = true) ∧
  c.Pairwise fun x y => x.2.offset ≤ y.2.offset

@[simp] theorem passesAfter_nil (period : Nat) (records : Vector Channel 16) (visited : List SlotIx) (previous : Nat) :
    PassesAfter period records visited previous [] := by simp [PassesAfter]

theorem passesAfter_cons {period : Nat} {records : Vector Channel 16} {visited : List SlotIx} {previous : Nat} {p : SlotIx}
    {st : Step} {c : List (SlotIx × Step)} :
    PassesAfter period records visited previous ((p, st) :: c) ↔
      (p ∉ visited ∧ previous ≤ st.offset ∧ st.offset < period ∧ fitsKind records st.action = true) ∧
      PassesAfter period records (p :: visited) st.offset c := by
  simp only [PassesAfter, List.map_cons, List.nodup_cons, List.mem_cons, List.pairwise_cons, List.mem_map, not_or]
  constructor
  · rintro ⟨⟨hp, hd⟩, hall, hle, ho⟩
    refine ⟨hall _ (.inl rfl), hd, fun x hx => ?_, ho⟩
    obtain ⟨hv, -, hrest⟩ := hall x (.inr hx)
    exact ⟨⟨fun e => hp ⟨x, hx, e⟩, hv⟩, hle x hx, hrest⟩
  · rintro ⟨⟨hv, hprevious, hst⟩, hd, hall, ho⟩
    refine ⟨⟨fun ⟨x, hx, e⟩ => ?_, hd⟩, ?_, fun x hx => ?_, ho⟩
    · obtain ⟨⟨hne, -⟩, -⟩ := hall x hx
      exact hne e
    · rintro x (rfl | hx)
      · exact ⟨hv, hprevious, hst⟩
      · obtain ⟨⟨-, hvx⟩, hle, hrest⟩ := hall x hx
        exact ⟨hvx, hprevious.trans hle, hrest⟩
    · obtain ⟨-, hle, -⟩ := hall x hx
      exact hle

/-- The checks on a path from its first slot on are those of R14 alone. -/
theorem passesAfter_start {period : Nat} {records : Vector Channel 16} {c : List (SlotIx × Step)} :
    PassesAfter period records [] 0 c ↔
      (c.map Prod.fst).Nodup ∧ (∀ x ∈ c, x.2.offset < period ∧ fitsKind records x.2.action = true) ∧
      c.Pairwise fun x y => x.2.offset ≤ y.2.offset := by
  simp [PassesAfter]

/-- The checks read the channels through the kinds that the steps of the chain name. -/
theorem PassesAfter.congr {period period' : Nat} {records records' : Vector Channel 16} {visited : List SlotIx} {previous : Nat}
    {c : List (SlotIx × Step)} (hp : ∀ x ∈ c, x.2.offset < period → x.2.offset < period')
    (hk : ∀ x ∈ c, fitsKind records x.2.action = true → fitsKind records' x.2.action = true)
    (h : PassesAfter period records visited previous c) : PassesAfter period' records' visited previous c := by
  obtain ⟨hd, hall, ho⟩ := h
  refine ⟨hd, fun x hx => ?_, ho⟩
  obtain ⟨hv, hle, hlt, hf⟩ := hall x hx
  exact ⟨hv, hle, hp x hx hlt, hk x hx hf⟩

/-! ### The validation walk -/

theorem checkSlot_ok_iff {t : PlanTable} {period : Nat} {records : Vector Channel 16} {visited : List SlotIx}
    {previous : Option Nat} {p : SlotIx} {st : Step} :
    checkSlot t period records visited previous p = .ok st ↔
      t.slots.get p = some st ∧ p ∉ visited ∧ previous.getD 0 ≤ st.offset ∧ st.offset < period ∧
        fitsKind records st.action = true := by
  unfold checkSlot
  cases t.slots.get p with
  | none => simp
  | some st' =>
    simp only [Option.some.injEq]
    split
    · next hv => simp only [reduceCtorEq, false_iff]; rintro ⟨rfl, hv', -⟩; exact hv' hv
    · next hv =>
      split
      · next hlt => simp only [reduceCtorEq, false_iff]; rintro ⟨rfl, -, -, hlt', -⟩; omega
      · next hlt =>
        split
        · next hle => simp only [reduceCtorEq, false_iff]; rintro ⟨rfl, -, hle', -⟩; omega
        · next hle =>
          split
          · next hf =>
            simp only [Except.ok.injEq]
            exact ⟨fun e => e ▸ ⟨rfl, hv, by omega, by omega, hf⟩, fun h => h.1⟩
          · next hf => simp only [reduceCtorEq, false_iff]; rintro ⟨rfl, -, -, -, hf'⟩; exact hf hf'

/-- The walk succeeds exactly on a chain that comes to END and passes the checks; it counts the slots visited. -/
theorem validateFrom_ok_iff {t : PlanTable} {period : Nat} {records : Vector Channel 16} {fuel : Nat} {visited : List SlotIx}
    {previous : Option Nat} {p : Option SlotIx} {n : Nat} :
    validateFrom t period records fuel visited previous p = .ok n ↔
      EndsAtEnd p (chainFrom t fuel p) ∧ PassesAfter period records visited (previous.getD 0) (chainFrom t fuel p) ∧
        n = visited.length + (chainFrom t fuel p).length := by
  induction fuel generalizing visited previous p with
  | zero =>
    cases p with
    | none => simp [validateFrom, endsAtEnd_end, eq_comm]
    | some p => simp [validateFrom, chainFrom, not_endsAtEnd_nil]
  | succ fuel ih =>
    cases p with
    | none => simp [validateFrom, endsAtEnd_end, eq_comm]
    | some p =>
      cases hp : t.slots.get p with
      | none => simp [validateFrom, checkSlot, hp, chainFrom_emptySlot hp, not_endsAtEnd_nil]
      | some st =>
        rw [chainFrom_filledSlot hp, endsAtEnd_cons, passesAfter_cons]
        have hcheck := @checkSlot_ok_iff t period records visited previous p
        cases hc : checkSlot t period records visited previous p with
        | ok st' =>
          obtain ⟨hs, hrest⟩ := hcheck.1 hc
          obtain rfl : st = st' := by simpa [hp] using hs
          have hl : ∀ k, visited.length + 1 + k = visited.length + (k + 1) := by omega
          simp only [validateFrom, hc, ih, Option.getD_some, List.length_cons, hrest, not_false_eq_true, true_and, hl]
        | error e =>
          simp only [validateFrom, hc, reduceCtorEq, false_iff]
          rintro ⟨-, ⟨hpass, -⟩, -⟩
          simp [hcheck.2 ⟨hp, hpass⟩] at hc

/-- The walk follows a path whose steps pass the checks, and stands behind it. -/
theorem validateFrom_path {t : PlanTable} {period : Nat} {records : Vector Channel 16} {path : List (SlotIx × Step)} {m k : Nat}
    {visited : List SlotIx} {previous : Option Nat} {p : Option SlotIx} (hc : path <+: chainFrom t k p)
    (hp : PassesAfter period records visited (previous.getD 0) path) :
    validateFrom t period records (path.length + m) visited previous p =
      validateFrom t period records m ((path.map Prod.fst).reverse ++ visited)
        ((path.getLast?.map fun x => x.2.offset).or previous) (linkAfter p path) := by
  induction path generalizing k visited previous p with
  | nil => simp
  | cons x path ih =>
    cases k with
    | zero => simp [chainFrom] at hc
    | succ k =>
      cases p with
      | none => simp at hc
      | some p =>
        cases hs : t.slots.get p with
        | none => simp [chainFrom_emptySlot hs] at hc
        | some st =>
          rw [chainFrom_filledSlot hs, List.cons_prefix_cons] at hc
          obtain ⟨rfl, hc⟩ := hc
          obtain ⟨hst, hrest⟩ := passesAfter_cons.1 hp
          have hok := checkSlot_ok_iff.2 ⟨hs, hst⟩
          have e : ((p, st) :: path).length + m = (path.length + m) + 1 := by simp; omega
          rw [e]
          simp only [validateFrom, hok]
          rw [ih hc hrest]
          cases path with
          | nil => simp
          | cons y ys => simp [List.getLast?_cons]

/-- A table's chain has at most 48 slots, so the walk of 49 slots sees its end. -/
theorem length_le_of_nodup {c : List (SlotIx × Step)} (h : (c.map Prod.fst).Nodup) : c.length ≤ 48 := by
  simpa using h.length_le_card

/-- Validation succeeds exactly on a chain that comes to END and passes the checks, and gives its length (R13). -/
theorem validate_ok_iff {t : PlanTable} {period : Nat} {records : Vector Channel 16} {n : Nat} :
    validate t period records = .ok n ↔
      EndsAtEnd t.head t.chain ∧ PassesAfter period records [] 0 t.chain ∧ n = t.chain.length := by
  have same : ∀ {i j : Nat}, EndsAtEnd t.head (chainFrom t i t.head) → ((chainFrom t i t.head).map Prod.fst).Nodup → 48 ≤ j →
      chainFrom t j t.head = chainFrom t i t.head :=
    fun he hd hj => chainFrom_of_endsAtEnd he ((length_le_of_nodup hd).trans hj)
  unfold validate PlanTable.chain
  rw [validateFrom_ok_iff]
  simp only [List.length_nil, Nat.zero_add, Option.getD_none]
  constructor
  · rintro ⟨he, hp, hn⟩
    rw [same he hp.1 (Nat.le_refl 48)]
    exact ⟨he, hp, hn⟩
  · rintro ⟨he, hp, hn⟩
    rw [same he hp.1 (by omega : 48 ≤ 49)]
    exact ⟨he, hp, hn⟩

/-- Validation of a table whose chain begins with a path of passing steps is decided at the slot behind it. -/
theorem validate_path {t : PlanTable} {period : Nat} {records : Vector Channel 16} {path : List (SlotIx × Step)} {q : SlotIx}
    {check : PlanCheck} (hc : path <+: t.chain) (hq : linkAfter t.head path = some q) (hp : PassesAfter period records [] 0 path)
    (h : checkSlot t period records (path.map Prod.fst).reverse (path.getLast?.map fun x => x.2.offset) q = .error check) :
    validate t period records = .error (check, q) := by
  have hl := length_le_of_nodup hp.1
  obtain ⟨m, hm⟩ : ∃ m, 49 = path.length + (m + 1) := ⟨48 - path.length, by omega⟩
  unfold validate
  rw [hm, validateFrom_path hc hp, hq]
  simp only [List.append_nil, Option.or_none, validateFrom, h]

/-- The offset before a slot is the greatest on the path to it. -/
theorem le_last_offset {path : List (SlotIx × Step)} (ho : path.Pairwise fun x y => x.2.offset ≤ y.2.offset)
    {x : SlotIx × Step} (hx : x ∈ path) : x.2.offset ≤ (path.getLast?.map fun y => y.2.offset).getD 0 := by
  obtain ⟨ys, y, rfl⟩ := List.eq_nil_or_concat path |>.resolve_left (List.ne_nil_of_mem hx)
  simp only [List.concat_eq_append, List.mem_append, List.mem_singleton, List.pairwise_append] at hx ho
  obtain hx | rfl := hx
  · simpa using ho.2.2 x hx y rfl
  · simp

/-- The offset before a slot is 0 or that of a step on the path to it. -/
theorem last_offset_le {path : List (SlotIx × Step)} {n : Nat} (h : ∀ x ∈ path, x.2.offset ≤ n) :
    (path.getLast?.map fun y => y.2.offset).getD 0 ≤ n := by
  cases hl : path.getLast? with
  | none => simp
  | some x => simpa using h x (List.mem_of_getLast? hl)

/-- Settles O14: the walk of `validate` along the chain, followed to END or to the first slot that fails. -/
theorem validationMeansPlanLaw : Obligations.ValidationMeansPlanLaw := by
  refine ⟨fun t period records => ⟨?_, fun n h => (validate_ok_iff.1 h).2.2, ?_⟩, rfl, rfl, rfl, rfl, rfl⟩
  · simp only [validate_ok_iff, passesAfter_start]
    exact ⟨fun ⟨_, he, ⟨hd, hrest⟩, _⟩ => ⟨hd, he, hrest⟩, fun ⟨hd, he, hrest⟩ => ⟨_, he, ⟨hd, hrest⟩, rfl⟩⟩
  · intro path q hc hq hd hall ho failsWith
    have fails : ∀ {check}, checkSlot t period records (path.map Prod.fst).reverse (path.getLast?.map fun x => x.2.offset) q
        = .error check → failsWith check := validate_path hc hq (passesAfter_start.2 ⟨hd, hall, ho⟩)
    refine ⟨fun hs => fails (by simp [checkSlot, hs]), fun st hs => ⟨fun hq => fails ?_, fun hq => ⟨fun hlt => fails ?_, fun hlt =>
      ⟨fun ⟨x, hx, hox⟩ => fails ?_, fun hle hf => fails ?_⟩⟩⟩⟩
    · simp [checkSlot, hs, List.mem_reverse.2 hq]
    · simp [checkSlot, hs, mt List.mem_reverse.1 hq, hlt]
    · have hlast := le_last_offset ho hx
      simp only [checkSlot, hs, mt List.mem_reverse.1 hq, if_false, Nat.not_le.2 hlt, if_pos (Nat.lt_of_lt_of_le hox hlast)]
    · have hlast := last_offset_le hle
      simp only [checkSlot, hs, mt List.mem_reverse.1 hq, if_false, Nat.not_le.2 hlt, Nat.not_lt.2 hlast, hf]
      simp

end Sys2Proof.Machine
end

section
/-! PROOFS. The blocks beside the link and the Notice Unit, which arbitration, notices and replies leave alone; and the request that a
request command stands for. -/

namespace Sys2Proof.Machine

/-! ### The blocks beside the link and the Notice Unit -/

/-- What a state holds beside the Notice Unit, the Host Link, the Dispatcher and the model's own fields. -/
def State.blocks (s : State) : State :=
  { s with
    notices := NoticeUnit.emptied
    raising := []
    choices := 0
    link := HostLink.afterHardwareReset
    disp := Dispatcher.afterReset
    clearedAt := none
    putAt := none
    pending := [] }

theorem blocks_of_besideNotices {s t : State} (h : t.besideNotices = s.besideNotices) : t.blocks = s.blocks := by
  have := congrArg State.blocks h
  exact this

@[simp] theorem blocks_sendNotice (s : State) : (sendNotice s).blocks = s.blocks := blocks_of_besideNotices (by simp)
@[simp] theorem blocks_arbitrate (s : State) : (arbitrate s).blocks = s.blocks := blocks_of_besideNotices (by simp)
@[simp] theorem blocks_arbitrateAfter (b : Bool) (s : State) : (arbitrateAfter b s).blocks = s.blocks :=
  blocks_of_besideNotices (by simp)
@[simp] theorem blocks_maybeSendNotice (s : State) : (maybeSendNotice s).blocks = s.blocks :=
  blocks_of_besideNotices (by simp)
@[simp] theorem blocks_takeRaised (s : State) : (takeRaised s).blocks = s.blocks := blocks_of_besideNotices (by simp)
@[simp] theorem blocks_raiseAll (rs : List Raised) (s : State) : (raiseAll rs s).blocks = s.blocks :=
  blocks_of_besideNotices (by simp)
@[simp] theorem blocks_raise (r : Raised) (s : State) : (raise r s).blocks = s.blocks := rfl
@[simp] theorem blocks_choose (n : Nat) (s : State) : (choose n s).2.blocks = s.blocks := blocks_of_besideNotices (by simp)
@[simp] theorem blocks_setRx (r : Receiver) (s : State) : (setRx r s).blocks = s.blocks := rfl
@[simp] theorem blocks_placeReply (r : Frame) (s : State) : (placeReply r s).blocks = s.blocks := rfl
@[simp] theorem blocks_replied (f : Frame) (body : List Byte) (s : State) : (s.replied f body).blocks = s.blocks := rfl
@[simp] theorem blocks_taken (s : State) : s.taken.blocks = s.blocks := rfl
@[simp] theorem blocks_freeTransmitter (s : State) : (freeTransmitter s).blocks = s.blocks := rfl
@[simp] theorem blocks_emptySlot (s : State) : (emptySlot s).blocks = s.blocks := rfl

@[simp] theorem blocks_maybeSendBefore (s : State) : (maybeSendBefore s).blocks = s.blocks := by
  unfold maybeSendBefore
  split <;> simp

@[simp] theorem blocks_linkError (s : State) : (linkError s).blocks = s.blocks := by
  obtain ⟨k, hk⟩ := choose_state 2 s
  unfold linkError
  dsimp only
  split
  · split <;> rw [hk] <;> rfl
  · rfl

@[simp] theorem blocks_abandon (s : State) : (abandon s).blocks = s.blocks := by simp [abandon]

@[simp] theorem blocks_takeAck (body : List Byte) (s : State) : (takeAck body s).blocks = s.blocks := by
  unfold takeAck
  split <;> rfl

@[simp] theorem blocks_reportFill (ch : ChanIx) (n : Nat) (s : State) : (reportFill ch n s).blocks = s.blocks := by
  unfold reportFill
  split <;> rfl

/-- A predicate that reads nothing but the blocks. -/
def BlockLaw (P : State → Prop) : Prop := ∀ {s t : State}, P s → t.blocks = s.blocks → P t

/-- A way of carrying out a request that keeps a predicate. -/
def Carry.Keeps (P : State → Prop) (carry : Carry) : Prop := ∀ (body : List Byte) (s : State), P s → P (carry body s).1

/-- The Dispatcher leaves the blocks as the request does. -/
theorem serve_keeps {P : State → Prop} (hP : BlockLaw P) {carry : Carry} (hc : carry.Keeps P) (f : Frame) {s : State} (h : P s) :
    P (serve f carry s) := by
  have carried : P (carry f.body s.taken).1 := hc f.body s.taken (hP h rfl)
  unfold serve
  dsimp only
  split
  · split
    · exact hP h rfl
    · exact hP carried rfl
  · exact hP carried rfl

theorem dispatch_keeps {P : State → Prop} (hP : BlockLaw P) {carry : Carry} (hc : carry.Keeps P) (f : Frame) {s : State}
    (h : P s) : P (dispatch f carry s) := by
  unfold dispatch
  split
  · exact hP (serve_keeps hP hc f h) (blocks_arbitrateAfter _ _)
  · exact h

/-- What each request of the table keeps, a request of any kind keeps. -/
theorem carryOf_keeps {P : State → Prop} (h : ∀ x ∈ requestTable, Carry.Keeps P x.2) (kind : Byte) : (carryOf kind).Keeps P := by
  unfold carryOf
  cases hl : requestTable.lookup kind with
  | none => exact fun _ _ hs => hs
  | some carry =>
    obtain ⟨l₁, l₂, hx, -⟩ := List.lookup_eq_some_iff.1 hl
    exact h (kind, carry) (by simp [hx])

theorem serveHeld_keeps {P : State → Prop} (hP : BlockLaw P) (hc : ∀ x ∈ requestTable, Carry.Keeps P x.2) {s : State} (h : P s) :
    P (serveHeld s) := by
  unfold serveHeld
  split
  · exact serve_keeps hP (carryOf_keeps hc _) _ h
  · exact h

theorem withLength_keeps {P : State → Prop} {n : Nat} {body : List Byte} {s : State} {k : State × List Byte} (hs : P s)
    (hk : P k.1) : P (withLength n body s k).1 := by
  unfold withLength
  split
  · exact hk
  · exact hs

/-! ### The request of a request command -/

/-- The codes of section 10.6 are those of the table. -/
theorem requestTable_codes : requestTable.map Prod.fst = requestCodes := rfl

/-- A kind that names no request is carried out as unknown (R174). -/
theorem carryOf_unknown {kind : Byte} (h : unknownKindCode kind = true) : carryOf kind = carryUnknown := by
  have hn : requestTable.lookup kind = none := by
    rw [List.lookup_eq_none_iff]
    intro x hx
    have hm : x.1 ∈ requestCodes := requestTable_codes ▸ List.mem_map_of_mem hx
    simp only [unknownKindCode, Bool.and_eq_true, Bool.not_eq_true', List.contains_eq_mem, decide_eq_false_iff_not] at h
    simp only [bne_iff_ne, ne_eq]
    rintro rfl
    exact h.2 hm
  simp [carryOf, hn]

/-- A request is taken while no hardware reset lasts (R171). -/
theorem hwReset_of_canTake {f : Frame} {s : State} (h : canTake f s = true) : s.hwReset = none := by
  simp only [canTake, Bool.and_eq_true, Option.isNone_iff_eq_none] at h
  obtain ⟨⟨hw, -⟩, -⟩ := h
  exact hw

/-- A request command has its request taken by the Dispatcher, which carries it out by its kind (R171). -/
theorem exec_request {c : Instr} {f : Frame} (h : requestFrame? c = some f) (s : State) :
    exec c s = .next (dispatch f (carryOf f.kind) s) := by
  cases c
  case unknownKind seq kind body =>
    simp only [requestFrame?, Option.ite_none_right_eq_some, Option.some.injEq] at h
    obtain ⟨hk, rfl⟩ := h
    show execUnknownKind seq kind body s = _
    simp only [execUnknownKind, hk, if_true, carryOf_unknown hk]
  all_goals cases h
  all_goals rfl

/-- A length that a kind does not have: each request of the table answers BAD_LENGTH (R174). -/
theorem carryOf_badLength {kind : Byte} {least greatest : Nat} (hk : bodyLengths? kind = some (least, greatest))
    {body : List Byte} (hb : body.length < least ∨ greatest < body.length) (s : State) :
    carryOf kind body s = answer statusBadLength s := by
  have refused : ∀ {n : Nat} {k : State × List Byte}, body.length ≠ n → withLength n body s k = answer statusBadLength s :=
    fun hn => if_neg hn
  unfold bodyLengths? at hk
  split at hk
  -- QUEUE_PUT alone has a range of lengths (R86)
  case h_24 => cases hk; exact if_pos hb
  case h_25 => cases hk
  all_goals cases hk; exact refused (by omega)

/-- A request that changes no block is answered by the status alone (R175). -/
theorem exec_answer {c : Instr} {f : Frame} {s : State} (hc : requestFrame? c = some f) (h : TakenAsNew f s) {status : Byte}
    (ha : carryOf f.kind f.body s.taken = answer status s.taken) : exec c s = AnsweredFrom s f [status] := by
  rw [exec_request hc, dispatch_quiet (u := s) h ha rfl]
  rfl

/-- Settles O4: each request of the table begins with its length check. -/
theorem wrongLengthRefused : Obligations.WrongLengthRefused :=
  fun _ _ _ _ s hc h hk hb => exec_answer hc h (carryOf_badLength hk hb s.taken)

end Sys2Proof.Machine
end

section
/-! PROOFS. The plan law (R23, R24, R46, R49): what it reads of a state, what keeps it, and the walk along a valid plan. -/

namespace Sys2Proof.Machine

/-! ### Valid plans -/

theorem PlanTable.valid_iff {period : Nat} {records : Vector Channel 16} {t : PlanTable} :
    t.valid period records = true ↔ EndsAtEnd t.head t.chain ∧ PassesAfter period records [] 0 t.chain := by
  have hv : t.valid period records = true ↔ ∃ n, validate t period records = .ok n := by
    unfold PlanTable.valid
    cases validate t period records <;> simp
  simp [hv, validate_ok_iff]

/-- A plan stays valid under a period above its offsets and under channels that fit its steps. -/
theorem PlanTable.valid_mono {period period' : Nat} {records records' : Vector Channel 16} {t : PlanTable}
    (hp : ∀ x ∈ t.chain, x.2.offset < period → x.2.offset < period')
    (hk : ∀ x ∈ t.chain, fitsKind records x.2.action = true → fitsKind records' x.2.action = true)
    (h : t.valid period records = true) : t.valid period' records' = true := by
  obtain ⟨he, hc⟩ := PlanTable.valid_iff.1 h
  exact PlanTable.valid_iff.2 ⟨he, hc.congr hp hk⟩

/-- The fifth check reads the kind of the channel that the step names. -/
theorem fitsKind_congr {records records' : Vector Channel 16} {a : Action}
    (h : ∀ ch, a.channel? = some ch → (records'.get ch).kind = (records.get ch).kind) :
    fitsKind records' a = fitsKind records a := by
  unfold fitsKind
  cases ha : a.channel? with
  | none => rfl
  | some ch => simp [h ch ha]

theorem PlanTable.valid_of_kinds {period : Nat} {records records' : Vector Channel 16} {t : PlanTable}
    (hk : ∀ ch, (records'.get ch).kind = (records.get ch).kind) (h : t.valid period records = true) :
    t.valid period records' = true :=
  valid_mono (fun _ _ => id) (fun _ _ hf => (fitsKind_congr fun ch _ => hk ch).trans hf) h

/-- A channel that no step of the chain names may change (R25). -/
theorem PlanTable.valid_of_unnamed {period : Nat} {records records' : Vector Channel 16} {t : PlanTable} {ch : ChanIx}
    (hn : t.names ch = false) (hr : ∀ other, other ≠ ch → records'.get other = records.get other)
    (h : t.valid period records = true) : t.valid period records' = true := by
  refine valid_mono (fun _ _ => id) (fun x hx hf => (fitsKind_congr fun other ho => ?_).trans hf) h
  have hne : other ≠ ch := by
    rintro rfl
    simp only [PlanTable.names, List.any_eq_false] at hn
    exact hn x hx (by simp [ho])
  rw [hr other hne]

@[simp] theorem PlanTable.chain_empty : PlanTable.empty.chain = [] := rfl

/-- A plan without steps is valid (R4). -/
theorem PlanTable.valid_empty (period : Nat) (records : Vector Channel 16) : PlanTable.empty.valid period records = true :=
  valid_iff.2 ⟨rfl, by simp⟩

/-! ### What the plan law reads -/

/-- The part of a state that the plan law reads. -/
structure PlanView where
  plans : PlanStore
  period : Nat
  engine : EngineState
  cycle : CycleNo
  walk : Walk
  kinds : ChanIx → ChanKind

def State.planView (s : State) : PlanView :=
  { plans := s.plans, period := s.engine.period, engine := s.engine.state, cycle := s.engine.cycle, walk := s.walk
    kinds := fun ch => (s.chan ch).kind }

/-- Both plans that may be walked are valid: the active one, and the standby one while its swap is pending. -/
def PlansValid (s : State) : Prop :=
  s.plans.activeTable.valid s.engine.period s.chans.records = true ∧
  (s.plans.swapPending = true → s.plans.standby.valid s.engine.period s.chans.records = true)

theorem PlanLaw.plansValid {s : State} (h : PlanLaw s) : PlansValid s := by
  obtain ⟨hv, hp, -⟩ := h
  exact ⟨hv, fun hs => (hp hs).2⟩

/-- Two states with the same plans, period and kinds of channels have the same valid plans. -/
theorem PlansValid.congr {s t : State} (h : PlansValid s) (hp : t.plans = s.plans) (he : t.engine.period = s.engine.period)
    (hk : ∀ ch, (t.chan ch).kind = (s.chan ch).kind) : PlansValid t := by
  obtain ⟨ha, hs⟩ := h
  unfold PlansValid
  rw [hp, he]
  exact ⟨PlanTable.valid_of_kinds hk ha, fun h => PlanTable.valid_of_kinds hk (hs h)⟩

/-- The plan law reads nothing but its view. -/
theorem PlanLaw.congr {s t : State} (h : PlanLaw s) (hv : t.planView = s.planView) : PlanLaw t := by
  obtain ⟨ha, hp, hw⟩ := h
  simp only [State.planView, PlanView.mk.injEq, funext_iff] at hv
  obtain ⟨hplans, hperiod, hstate, hcycle, hwalk, hkinds⟩ := hv
  refine ⟨?_, ?_, ?_⟩
  · rw [hplans, hperiod]; exact PlanTable.valid_of_kinds hkinds ha
  · rw [hplans, hperiod, hstate]; exact fun h => ⟨(hp h).1, PlanTable.valid_of_kinds hkinds (hp h).2⟩
  · unfold walkOnPlan; rw [hplans, hstate, hcycle, hwalk]; exact hw

theorem planView_of_blocks {s t : State} (h : t.blocks = s.blocks) : t.planView = s.planView := by
  have := congrArg State.planView h
  exact this

theorem planLaw_blockLaw : BlockLaw PlanLaw := fun h hb => h.congr (planView_of_blocks hb)

/-! ### The kinds of channels -/

@[simp] theorem Channel.kind_toSafe (c : Channel) : c.toSafe.kind = c.kind := by cases c <;> rfl
@[simp] theorem Channel.kind_restamp (now : Nat) (cycle : CycleNo) (c : Channel) : (c.restamp now cycle).kind = c.kind := by
  cases c <;> rfl
@[simp] theorem Channel.kind_sampled (stamp : Stamp) (levels : BitVec 32) (c : Channel) :
    (c.sampled stamp levels).kind = c.kind := by cases c <;> rfl
@[simp] theorem Channel.kind_onBurst (f : BurstChan → BurstChan) (c : Channel) : (c.onBurst f).kind = c.kind := by
  cases c <;> rfl
@[simp] theorem Channel.kind_clearCount (c : Channel) : c.clearCount.kind = c.kind := by cases c <;> rfl
@[simp] theorem Channel.kind_flushed (c : Channel) : c.flushed.kind = c.kind := by cases c <;> rfl

@[simp] theorem Channel.kind_closeWindow (c : Channel) : c.closeWindow.kind = c.kind := by
  cases c with
  | edge c => simp only [Channel.closeWindow]; split <;> rfl
  | _ => rfl

@[simp] theorem Channel.kind_cutBurst (c : Channel) : c.cutBurst.kind = c.kind := by
  cases c with
  | burst c => simp only [Channel.cutBurst]; split <;> rfl
  | _ => rfl

@[simp] theorem Channel.kind_atStop (now : Bool) (c : Channel) : (c.atStop now).kind = c.kind := by
  cases now <;> simp [Channel.atStop]

/-- A record replaced by one of its kind. -/
theorem planView_setChan {ch : ChanIx} {c : Channel} {s : State} (h : c.kind = (s.chan ch).kind) :
    (s.setChan ch c).planView = s.planView := by
  have hk : ∀ other, ((s.setChan ch c).chan other).kind = (s.chan other).kind := by
    intro other
    by_cases ho : other = ch
    · rw [ho, State.chan_setChan_self, h]
    · rw [State.chan_setChan_other ho]
  simp [State.planView, hk]

/-- Every record changed by a function that keeps kinds. -/
theorem kind_mapRecords {f : Channel → Channel} (hf : ∀ c, (f c).kind = c.kind) (s : State) (ch : ChanIx) :
    (({ s with chans := s.chans.mapRecords f } : State).chan ch).kind = (s.chan ch).kind := by
  simp [State.chan, hf]

theorem planView_mapRecords {f : Channel → Channel} (hf : ∀ c, (f c).kind = c.kind) (s : State) :
    ({ s with chans := s.chans.mapRecords f } : State).planView = s.planView := by
  simp only [State.planView, kind_mapRecords hf]

theorem kind_stampAtBoundary (cycle : CycleNo) (s : State) (ch : ChanIx) :
    ((stampAtBoundary cycle s).records.get ch).kind = (s.chan ch).kind := by
  unfold stampAtBoundary
  split
  · rfl
  · exact kind_mapRecords (by simp) s ch

@[simp] theorem planView_applyCause (c : Cause) (s : State) : (applyCause c s).planView = s.planView := by
  unfold applyCause
  split
  · rfl
  · exact planView_mapRecords Channel.kind_toSafe s

/-! ### No walk -/

/-- Outside RUNNING the walk is DONE, and with no step remaining. -/
theorem PlanLaw.walk_done {s : State} (h : PlanLaw s) (he : s.engine.state ≠ .running) :
    s.walk.pointer = none ∧ s.walk.remaining = 0 := by
  obtain ⟨-, -, hw⟩ := h
  unfold walkOnPlan at hw
  split at hw
  · exact ⟨‹_›, hw⟩
  · exact absurd hw.1 he

/-- In STOPPED no swap is pending (R23). -/
theorem PlanLaw.notPending {s : State} (h : PlanLaw s) (he : s.engine.state = .stopped) : s.plans.swapPending = false := by
  obtain ⟨-, hp, -⟩ := h
  exact Bool.eq_false_iff.2 fun hs => (hp hs).1 he

theorem walkOnPlan_of_done {s : State} (hp : s.walk.pointer = none) (hr : s.walk.remaining = 0) : walkOnPlan s := by
  unfold walkOnPlan
  rw [hp]
  exact hr

/-- A state whose walk is absent meets the plan law when its plans are valid and no swap waits in STOPPED. -/
theorem PlansValid.planLaw_of_noWalk {s : State} (h : PlansValid s) (hp : s.plans.swapPending = true → s.engine.state ≠ .stopped)
    (hw : s.walk = Walk.absent) : PlanLaw s :=
  ⟨h.1, fun hs => ⟨hp hs, h.2 hs⟩, walkOnPlan_of_done (by rw [hw]; rfl) (by rw [hw]; rfl)⟩

theorem planLaw_of_emptied {s : State} (hp : s.plans = PlanStore.afterReset) (hw : s.walk = Walk.absent) : PlanLaw s := by
  have valid : PlansValid s := by
    unfold PlansValid
    rw [hp]
    exact ⟨PlanTable.valid_empty _ _, fun h => nomatch h⟩
  exact valid.planLaw_of_noWalk (fun h => by rw [hp] at h; cases h) hw

/-! ### The walk along a valid plan -/

theorem length_chainFrom_le (t : PlanTable) (n : Nat) (p : Option SlotIx) : (chainFrom t n p).length ≤ n := by
  induction n generalizing p with
  | zero => simp [chainFrom]
  | succ n ih =>
    cases p with
    | none => simp
    | some p =>
      cases hp : t.slots.get p with
      | none => simp [chainFrom_emptySlot hp]
      | some st => rw [chainFrom_filledSlot hp]; simpa using ih st.next

/-- A chain that comes to END meets no empty slot. -/
theorem slot_filled_of_endsAtEnd {t : PlanTable} {n : Nat} {p : SlotIx} (h : EndsAtEnd (some p) (chainFrom t n (some p))) :
    (t.slots.get p).isSome = true := by
  cases hp : t.slots.get p with
  | none => rw [chainFrom_emptySlot hp] at h; exact absurd h (not_endsAtEnd_nil p)
  | some st => rfl

/-- The last step of a chain is that of every part that reaches its end. -/
theorem EndsAtEnd.suffix {p q : Option SlotIx} {c d : List (SlotIx × Step)} (h : EndsAtEnd p c) (hs : d <:+ c) (hd : d ≠ [])
    (hq : q ≠ none) : EndsAtEnd q d := by
  obtain ⟨pre, rfl⟩ := hs
  cases q with
  | none => exact absurd rfl hq
  | some q =>
    cases p with
    | none => simp [EndsAtEnd, List.getLast?_append, List.getLast?_eq_some_getLast hd] at h
    | some p => simpa [EndsAtEnd, List.getLast?_append, List.getLast?_eq_some_getLast hd] using h

/-- The walk of a cycle begins on the plan that is then active (R48). -/
theorem planLaw_beginWalk {s : State} (h : PlansValid s) (hp : s.plans.swapPending = false) (hr : s.engine.state = .running) :
    PlanLaw (beginWalk s) := by
  refine ⟨h.1, fun hs => absurd (hp.symm.trans hs) (by decide), ?_⟩
  have he := (PlanTable.valid_iff.1 h.1).1
  unfold walkOnPlan
  cases hh : s.plans.activeTable.head with
  | none => simp [beginWalk, hh, PlanTable.chain]
  | some p =>
    have hc : chainFrom s.plans.activeTable 48 (some p) = s.plans.activeTable.chain := by rw [PlanTable.chain, hh]
    simp only [beginWalk, hh]
    rw [hc]
    rw [hh, ← hc] at he
    exact ⟨hr, trivial, trivial, slot_filled_of_endsAtEnd he, List.suffix_rfl, rfl⟩

/-- The rest of the walk behind the step in a slot of a valid plan's chain (R49, R50). -/
theorem chainFrom_next {t : PlanTable} {period : Nat} {records : Vector Channel 16} {p : SlotIx} {st : Step}
    (hv : t.valid period records = true) (hs : t.slots.get p = some st) (hc : chainFrom t 48 (some p) <:+ t.chain) :
    chainFrom t 48 (some p) = (p, st) :: chainFrom t 48 st.next ∧ EndsAtEnd st.next (chainFrom t 48 st.next) := by
  have hcons := chainFrom_filledSlot hs 47
  have he : EndsAtEnd (some p) ((p, st) :: chainFrom t 47 st.next) :=
    hcons ▸ (PlanTable.valid_iff.1 hv).1.suffix hc (by simp [hcons]) (by simp)
  have hn := endsAtEnd_cons.1 he
  have hsame := chainFrom_of_endsAtEnd hn ((length_chainFrom_le t 47 _).trans (by omega : 47 ≤ 48))
  exact ⟨by rw [hcons, hsame], by rw [hsame]; exact hn⟩

/-- The walk record moves on with the step that it stands on (R49, R50). -/
theorem walkOnPlan_passed {s : State} {p : SlotIx} {st : Step} (h : PlanLaw s) (hp : s.walk.pointer = some p)
    (hs : s.plans.activeTable.slots.get p = some st) : walkOnPlan { s with walk := s.walk.passed st } := by
  obtain ⟨hv, -, hw⟩ := h
  unfold walkOnPlan at hw
  rw [hp] at hw
  obtain ⟨hrun, htable, hcycle, -, hsuffix, hremaining⟩ := hw
  obtain ⟨hc, he⟩ := chainFrom_next hv hs hsuffix
  rw [hc, List.length_cons] at hremaining
  rw [hc] at hsuffix
  unfold walkOnPlan
  cases hn : st.next with
  | none => simp [Walk.passed, hn, hremaining]
  | some q =>
    rw [hn] at he hsuffix hremaining
    simp only [Walk.passed, hn]
    exact ⟨hrun, htable, hcycle, slot_filled_of_endsAtEnd he, (List.suffix_cons _ _).trans hsuffix, by omega⟩

/-- The step at the pointer of a walk that meets the plan law: the slot is filled, and its channel fits (R24). -/
theorem PlanLaw.step_fits {s : State} {p : SlotIx} (h : PlanLaw s) (hp : s.walk.pointer = some p) :
    ∃ st, s.walk.table = some s.plans.active ∧ s.plans.activeTable.slots.get p = some st ∧
      fitsKind s.chans.records st.action = true := by
  obtain ⟨hv, -, hw⟩ := h
  unfold walkOnPlan at hw
  rw [hp] at hw
  obtain ⟨-, htable, -, hfilled, hsuffix, -⟩ := hw
  obtain ⟨st, hst⟩ := Option.isSome_iff_exists.1 hfilled
  obtain ⟨-, -, hall, -⟩ := PlanTable.valid_iff.1 hv
  have hmem : (p, st) ∈ s.plans.activeTable.chain := hsuffix.subset (by rw [chainFrom_filledSlot hst 47]; simp)
  obtain ⟨-, -, -, hfits⟩ := hall _ hmem
  exact ⟨st, htable, hst, hfits⟩

end Sys2Proof.Machine
end

section
/-! PROOFS. Swaps, boundaries and stops as one change of the state and the notices raised, and that they keep the plan law. -/

namespace Sys2Proof.Machine

/-! ### The swap -/

/-- The Plan Store once a pending swap has been performed (R18, R19). -/
def PlanStore.afterSwap (p : PlanStore) : PlanStore := if p.swapPending then p.swapped else p

/-- The notices of a pending swap as it is performed. -/
def swapRaised (s : State) : List Raised :=
  if s.plans.swapPending then [swapNotice s.plans.swapped s.engine.cycle] else []

theorem performSwap_eq (s : State) : performSwap s = ({ s with plans := s.plans.afterSwap }, swapRaised s) := by
  unfold performSwap PlanStore.afterSwap swapRaised
  split <;> rfl

@[simp] theorem PlanStore.afterSwap_swapPending (p : PlanStore) : p.afterSwap.swapPending = false := by
  unfold PlanStore.afterSwap
  split
  · rfl
  · next h => exact Bool.eq_false_iff.2 h

theorem PlansValid.afterSwap {s : State} (h : PlansValid s) : PlansValid { s with plans := s.plans.afterSwap } := by
  obtain ⟨ha, hs⟩ := h
  refine ⟨?_, fun hp => absurd (s.plans.afterSwap_swapPending.symm.trans hp) (by decide)⟩
  unfold PlanStore.afterSwap
  dsimp only
  split
  · exact hs ‹_›
  · exact ha

/-! ### Boundaries and stops -/

/-- What a boundary hands on (R33, R48, R57): the pending swap, and the walk of the plan then active. -/
theorem handOn_eq (s : State) :
    handOn s = raiseAll (swapRaised s ++ (endWalk s).2) (beginWalk { s with plans := s.plans.afterSwap }) := by
  simp only [handOn, performSwap_eq]
  rfl

/-- The engine as entry into STOPPED leaves it (R43). -/
def Engine.entersStopped (e : Engine) : Engine :=
  { e with state := .stopped, stopPending := false, flywheel := false, cycleStart := none, nextBoundary := none }

/-- The blocks as entry into STOPPED leaves them (R19, R43, R102, R115). -/
def State.entersStopped (now : Bool) (s : State) : State :=
  { s with
    plans := s.plans.afterSwap
    engine := s.engine.entersStopped
    walk := Walk.absent
    chans := s.chans.mapRecords (Channel.atStop now) }

/-- The CYCLE_STOPPED notice (R43). -/
def stoppedNotice (now : Bool) (s : State) : Raised :=
  { kind := .cycleStopped, subject := none, detail := if now then 1 else 0, cycle := s.engine.cycle }

theorem enterStopped_eq (now : Bool) (cut : List Raised) (s : State) :
    enterStopped now cut s = raiseAll (swapRaised s ++ stoppedNotice now s :: cut) (s.entersStopped now) := by
  simp only [enterStopped, performSwap_eq]
  rfl

theorem stopAtBoundary_eq (s : State) :
    stopAtBoundary s = raiseAll (swapRaised s ++ stoppedNotice false s :: (endWalk s).2) (s.entersStopped false) := by
  simp only [stopAtBoundary, enterStopped_eq]
  rfl

theorem planLaw_raiseAll {s : State} (h : PlanLaw s) (rs : List Raised) : PlanLaw (raiseAll rs s) :=
  planLaw_blockLaw h (blocks_raiseAll rs s)

theorem planLaw_handOn {s : State} (h : PlansValid s) (hr : s.engine.state = .running) : PlanLaw (handOn s) := by
  rw [handOn_eq]
  exact planLaw_raiseAll (planLaw_beginWalk h.afterSwap (by simp) hr) _

theorem planLaw_entersStopped {s : State} (h : PlansValid s) (now : Bool) : PlanLaw (s.entersStopped now) := by
  have valid : PlansValid (s.entersStopped now) :=
    h.afterSwap.congr rfl rfl fun ch => kind_mapRecords (Channel.kind_atStop now) s ch
  refine valid.planLaw_of_noWalk (fun hp => ?_) rfl
  simp [State.entersStopped] at hp

theorem planLaw_enterStopped {s : State} (h : PlansValid s) (now : Bool) (cut : List Raised) :
    PlanLaw (enterStopped now cut s) := by
  rw [enterStopped_eq]
  exact planLaw_raiseAll (planLaw_entersStopped h now) _

theorem planLaw_stopAtBoundary {s : State} (h : PlansValid s) : PlanLaw (stopAtBoundary s) := by
  rw [stopAtBoundary_eq]
  exact planLaw_raiseAll (planLaw_entersStopped h false) _

theorem planLaw_newCycle {s : State} (h : PlanLaw s) (flywheel : Bool) (source : Option NoticeKind) :
    PlanLaw (newCycle flywheel source s) := by
  have taken : PlansValid (takeRaised s) := (planLaw_blockLaw h (blocks_takeRaised s)).plansValid
  unfold newCycle
  dsimp only
  cases source <;> exact planLaw_handOn (taken.congr rfl rfl (kind_stampAtBoundary _ _)) rfl

theorem planLaw_boundary {s : State} (h : PlanLaw s) (flywheel : Bool) (source : Option NoticeKind) :
    PlanLaw (boundary flywheel source s) := by
  unfold boundary
  split
  · exact planLaw_stopAtBoundary h.plansValid
  · exact planLaw_newCycle h flywheel source

theorem planLaw_firstCycle {s : State} (h : PlanLaw s) : PlanLaw (firstCycle s) :=
  planLaw_handOn (h.plansValid.congr rfl rfl fun _ => rfl) rfl

theorem planLaw_risingEdge {s : State} (h : PlanLaw s) : PlanLaw (risingEdge s) := by
  unfold risingEdge
  split
  · exact planLaw_firstCycle h
  · split
    · exact planLaw_boundary h _ _
    · exact planLaw_boundary h _ _
  · exact h

theorem planLaw_stopEngine {s : State} (h : PlanLaw s) (now : Bool) : PlanLaw (stopEngine now s) := by
  unfold stopEngine
  split
  · exact h
  · exact planLaw_enterStopped h.plansValid now []
  · split
    · exact planLaw_enterStopped h.plansValid true []
    · exact h.congr rfl

/-! ### Resets -/

theorem planLaw_announceReset {s : State} {cause : Byte} (hp : s.plans = PlanStore.afterReset) (hw : s.walk = Walk.absent) :
    PlanLaw (announceReset cause s) := by
  have ready : PlanLaw (raise { kind := .ready, subject := some cause, detail := 0, cycle := 0 } s) := planLaw_of_emptied hp hw
  unfold announceReset
  dsimp only
  split
  · exact ready.congr (planView_applyCause _ _)
  · exact ready

theorem planLaw_softReset (s : State) : PlanLaw (softReset s) := planLaw_announceReset rfl rfl

end Sys2Proof.Machine
end

section
/-! PROOFS. Every command keeps the plan law and answers a next state (R24, R49). -/

namespace Sys2Proof.Machine

/-! ### Requests that no plan depends on -/

/-- A request that leaves the view of the plan law as it is keeps the law. -/
theorem Carry.keeps_of_planView {carry : Carry} (h : ∀ body s, (carry body s).1.planView = s.planView) : carry.Keeps PlanLaw :=
  fun body s hs => hs.congr (h body s)

theorem planView_withLength {n : Nat} {body : List Byte} {s : State} {k : State × List Byte} (hk : k.1.planView = s.planView) :
    (withLength n body s k).1.planView = s.planView := by
  unfold withLength
  split
  · exact hk
  · rfl

theorem carryIdentify_keeps_planLaw : carryIdentify.Keeps PlanLaw :=
  Carry.keeps_of_planView fun _ _ => planView_withLength rfl

theorem carryStatus_keeps_planLaw : carryStatus.Keeps PlanLaw := Carry.keeps_of_planView fun body s => planView_withLength <| by
  cases flagAt body 0 with
  | none => rfl
  | some clear => cases clear <;> rfl

theorem carryReset_keeps_planLaw : carryReset.Keeps PlanLaw := Carry.keeps_of_planView fun _ _ => planView_withLength rfl

theorem carryPlanRead_keeps_planLaw : carryPlanRead.Keeps PlanLaw := Carry.keeps_of_planView fun body s => planView_withLength <| by
  cases selectTable s.plans (natAt body 0) <;> cases slotAt body 1 <;> rfl

theorem carryChanRead_keeps_planLaw : carryChanRead.Keeps PlanLaw := Carry.keeps_of_planView fun body s => planView_withLength <| by
  cases chanAt body 0 with
  | none => rfl
  | some ch =>
    cases flagAt body 1 with
    | none => rfl
    | some clear =>
      cases clear
      · rfl
      · exact planView_setChan (Channel.kind_clearCount _)

theorem carryChanEdge_keeps_planLaw : carryChanEdge.Keeps PlanLaw := Carry.keeps_of_planView fun body s => planView_withLength <| by
  cases chanAt body 0 with
  | none => rfl
  | some ch =>
    cases edgeSelectOf (natAt body 1) with
    | none => rfl
    | some select =>
      dsimp only
      split
      · rfl
      · next c hc => exact planView_setChan (by rw [hc]; rfl)
      · rfl

/-- The record that a QUEUE_PUT leaves, with the instant remembered (log 16). -/
theorem planView_putChan {ch : ChanIx} {c : Channel} {s : State} (h : c.kind = (s.chan ch).kind) :
    ({ s.setChan ch c with putAt := some (s.now, ch) } : State).planView = s.planView := planView_setChan h

theorem carryQueuePut_keeps_planLaw : carryQueuePut.Keeps PlanLaw := Carry.keeps_of_planView fun body s => by
  unfold carryQueuePut
  split
  · rfl
  · cases chanAt body 0 with
    | none => rfl
    | some ch =>
      dsimp only
      split
      · rfl
      · rfl
      · rfl
      · next c hc =>
        unfold putLevels
        dsimp only
        split
        · rfl
        · exact planView_putChan (by rw [hc]; rfl)
      · next c hc =>
        unfold putBursts
        dsimp only
        split
        · rfl
        · split
          · rfl
          · exact planView_putChan (by rw [hc]; rfl)

theorem carryQueueTake_keeps_planLaw : carryQueueTake.Keeps PlanLaw := Carry.keeps_of_planView fun body s => planView_withLength <| by
  cases chanAt body 0 with
  | none => rfl
  | some ch =>
    dsimp only
    split
    · rfl
    · split
      · rfl
      · rfl
      · rfl
      · next c hc => exact planView_setChan (by rw [hc]; rfl)
      · next c hc => exact planView_setChan (by rw [hc]; rfl)

theorem carryQueueFlush_keeps_planLaw : carryQueueFlush.Keeps PlanLaw := Carry.keeps_of_planView fun body s => planView_withLength <| by
  cases chanAt body 0 with
  | none => rfl
  | some ch =>
    dsimp only
    split
    · rfl
    · exact planView_setChan (Channel.kind_flushed _)

theorem carrySafe_keeps_planLaw : carrySafe.Keeps PlanLaw :=
  Carry.keeps_of_planView fun _ s => planView_withLength (planView_applyCause _ s)

theorem carryResume_keeps_planLaw : carryResume.Keeps PlanLaw := Carry.keeps_of_planView fun _ s => planView_withLength <| by
  split <;> rfl

theorem carrySilenceSet_keeps_planLaw : carrySilenceSet.Keeps PlanLaw := Carry.keeps_of_planView fun _ s => planView_withLength <| by
  dsimp only
  split <;> rfl

/-! ### Requests that a plan depends on -/

/-- CYCLE_SET: the engine is STOPPED, so only the active chain matters, and its offsets lie below the new period (R26). -/
theorem carryCycleSet_keeps_planLaw : carryCycleSet.Keeps PlanLaw := by
  intro body s h
  refine withLength_keeps h ?_
  cases modeOf (natAt body 4) with
  | none => exact h
  | some mode =>
    dsimp only
    split
    · exact h
    · split
      · exact h
      · next hstate =>
        split
        · exact h
        · next hbeyond =>
          have hstopped : s.engine.state = .stopped := by simpa using hstate
          have hbelow : ∀ x ∈ s.plans.activeTable.chain, x.2.offset < read32 body 0 := by
            simpa [slotBeyond, List.find?_eq_none] using hbeyond
          obtain ⟨hpointer, hremaining⟩ := h.walk_done (by simp [hstopped])
          have hnone := h.notPending hstopped
          exact ⟨PlanTable.valid_mono (fun x hx _ => hbelow x hx) (fun _ _ => id) h.1,
            fun hs => absurd (hnone.symm.trans hs) (by decide), walkOnPlan_of_done hpointer hremaining⟩

/-- START: the engine is STOPPED, so no swap is pending and no walk is under way. -/
theorem carryStart_keeps_planLaw : carryStart.Keeps PlanLaw := by
  intro body s h
  refine withLength_keeps h ?_
  split
  · exact h
  · next hstate =>
    have hstopped : s.engine.state = .stopped := by simpa using hstate
    have hnone := h.notPending hstopped
    cases s.engine.mode with
    | free => exact planLaw_beginWalk (h.plansValid.congr rfl rfl fun _ => rfl) hnone rfl
    | sync =>
      obtain ⟨hpointer, hremaining⟩ := h.walk_done (by simp [hstopped])
      exact ⟨h.1, fun hs => absurd (hnone.symm.trans hs) (by decide), walkOnPlan_of_done hpointer hremaining⟩

theorem carryStop_keeps_planLaw : carryStop.Keeps PlanLaw := by
  intro body s h
  refine withLength_keeps h ?_
  cases flagAt body 0 with
  | none => exact h
  | some now => exact planLaw_stopEngine h now

/-- An edit reaches the standby plan while no swap is pending, and so no plan that is walked or waits to be. -/
theorem planLaw_editStandby {s : State} (h : PlanLaw s) (edit : PlanTable → PlanTable) : PlanLaw (editStandby edit s).1 := by
  unfold editStandby
  dsimp only
  split
  · exact h
  · next hp =>
    obtain ⟨hv, -, hw⟩ := h
    refine ⟨by simpa using hv, fun hs => absurd (by simpa using hs) hp, ?_⟩
    unfold walkOnPlan at hw ⊢
    simpa using hw

theorem carryStepPut_keeps_planLaw : carryStepPut.Keeps PlanLaw := by
  intro body s h
  refine withLength_keeps h ?_
  cases parseStep body with
  | none => exact h
  | some x => exact planLaw_editStandby h _

theorem carryStepDrop_keeps_planLaw : carryStepDrop.Keeps PlanLaw := by
  intro body s h
  refine withLength_keeps h ?_
  cases slotAt body 0 with
  | none => exact h
  | some p => exact planLaw_editStandby h _

theorem carryPlanHead_keeps_planLaw : carryPlanHead.Keeps PlanLaw := by
  intro body s h
  refine withLength_keeps h ?_
  cases slotOrNoneAt body 0 with
  | none => exact h
  | some p => exact planLaw_editStandby h _

theorem carryPlanClear_keeps_planLaw : carryPlanClear.Keeps PlanLaw :=
  fun _ _ h => withLength_keeps h (planLaw_editStandby h _)

theorem carryPlanCopy_keeps_planLaw : carryPlanCopy.Keeps PlanLaw :=
  fun _ _ h => withLength_keeps h (planLaw_editStandby h _)

theorem valid_of_validate {t : PlanTable} {period n : Nat} {records : Vector Channel 16}
    (h : validate t period records = .ok n) : t.valid period records = true := by simp [PlanTable.valid, h]

/-- PLAN_COMMIT: the standby plan has passed validation before it becomes active or its swap pending. -/
theorem carryPlanCommit_keeps_planLaw : carryPlanCommit.Keeps PlanLaw := by
  intro body s h
  refine withLength_keeps h ?_
  split
  · exact h
  · split
    · exact h
    · next n hn =>
      have hstandby := valid_of_validate hn
      dsimp only
      split
      · next hstopped =>
        obtain ⟨hpointer, hremaining⟩ := h.walk_done (by simp [hstopped])
        have swapped : PlanLaw { s with plans := s.plans.swapped } :=
          ⟨hstandby, fun hs => absurd hs Bool.false_ne_true, walkOnPlan_of_done hpointer hremaining⟩
        exact planLaw_raiseAll swapped _
      · next hstate =>
        obtain ⟨hv, -, hw⟩ := h
        exact ⟨hv, fun _ => ⟨hstate, hstandby⟩, hw⟩

theorem carryCommitCancel_keeps_planLaw : carryCommitCancel.Keeps PlanLaw := by
  intro body s h
  refine withLength_keeps h ?_
  split
  · obtain ⟨hv, -, hw⟩ := h
    exact ⟨hv, fun hs => absurd hs Bool.false_ne_true, hw⟩
  · exact h

/-- A channel that no walked or waiting plan names may be configured anew (R25). -/
theorem planLaw_replace {s : State} {ch : ChanIx} (h : PlanLaw s) (hr : s.plans.referenced ch = false) (c : Channel) :
    PlanLaw { s with chans := s.chans.replace ch c } := by
  obtain ⟨hv, hp, hw⟩ := h
  obtain ⟨hactive, hstandby⟩ : s.plans.activeTable.names ch = false ∧
      (s.plans.swapPending = true → s.plans.standby.names ch = false) := by
    simpa [PlanStore.referenced] using hr
  have other : ∀ o, o ≠ ch → (s.chans.replace ch c).records.get o = s.chans.records.get o :=
    fun o ho => State.chan_setChan_other ho c s
  exact ⟨PlanTable.valid_of_unnamed hactive other hv,
    fun hs => ⟨(hp hs).1, PlanTable.valid_of_unnamed (hstandby hs) other (hp hs).2⟩, hw⟩

theorem carryChanSet_keeps_planLaw : carryChanSet.Keeps PlanLaw := by
  intro body s h
  refine withLength_keeps h ?_
  cases chanAt body 0 with
  | none => exact h
  | some ch =>
    cases setupOf body with
    | none => exact h
    | some setup =>
      dsimp only
      split
      · exact h
      · next hr =>
        split
        · exact h
        · split
          · exact h
          · exact planLaw_replace h (Bool.eq_false_iff.2 hr) _

theorem carryChanRelease_keeps_planLaw : carryChanRelease.Keeps PlanLaw := by
  intro body s h
  refine withLength_keeps h ?_
  cases chanAt body 0 with
  | none => exact h
  | some ch =>
    dsimp only
    split
    · exact h
    · split
      · exact h
      · next hr => exact planLaw_replace h (Bool.eq_false_iff.2 hr) _

/-- Every request of the table keeps the plan law. -/
theorem requestTable_keeps_planLaw : ∀ x ∈ requestTable, Carry.Keeps PlanLaw x.2 := by
  simp only [requestTable, List.forall_mem_cons, List.not_mem_nil, false_implies, implies_true, and_true]
  exact ⟨carryIdentify_keeps_planLaw, carryStatus_keeps_planLaw, carryReset_keeps_planLaw, carryCycleSet_keeps_planLaw, carryStart_keeps_planLaw, carryStop_keeps_planLaw,
    carryStepPut_keeps_planLaw, carryStepDrop_keeps_planLaw, carryPlanHead_keeps_planLaw, carryPlanClear_keeps_planLaw, carryPlanCopy_keeps_planLaw,
    carryPlanRead_keeps_planLaw, carryPlanCommit_keeps_planLaw, carryCommitCancel_keeps_planLaw, carryChanSet_keeps_planLaw, carryChanRelease_keeps_planLaw,
    carryChanRead_keeps_planLaw, carryChanEdge_keeps_planLaw, carryQueuePut_keeps_planLaw, carryQueueTake_keeps_planLaw, carryQueueFlush_keeps_planLaw,
    carrySafe_keeps_planLaw, carryResume_keeps_planLaw, carrySilenceSet_keeps_planLaw⟩

theorem planLaw_dispatch {f : Frame} {s : State} (h : PlanLaw s) (kind : Byte) : PlanLaw (dispatch f (carryOf kind) s) :=
  dispatch_keeps planLaw_blockLaw (carryOf_keeps requestTable_keeps_planLaw kind) f h

theorem planLaw_serveHeld {s : State} (h : PlanLaw s) : PlanLaw (serveHeld s) :=
  serveHeld_keeps planLaw_blockLaw requestTable_keeps_planLaw h

/-! ### Characters and frames -/

theorem planLaw_arbitrate {s : State} (h : PlanLaw s) : PlanLaw (arbitrate s) := planLaw_blockLaw h (blocks_arbitrate s)

theorem planLaw_arbitrateAfter {s : State} (h : PlanLaw s) (b : Bool) : PlanLaw (arbitrateAfter b s) :=
  planLaw_blockLaw h (blocks_arbitrateAfter b s)

theorem planLaw_offerRequest {s : State} (h : PlanLaw s) (f : Frame) : PlanLaw (offerRequest f s) := by
  unfold offerRequest
  split
  · exact planLaw_blockLaw h (blocks_linkError s)
  · have held : PlanLaw { s with link := { s.link with holding := some f } } := planLaw_blockLaw h rfl
    dsimp only
    split
    · exact planLaw_arbitrateAfter (planLaw_serveHeld held) _
    · exact held

theorem planLaw_judgeFrame {s : State} (h : PlanLaw s) (f : Frame) (received : Nat) : PlanLaw (judgeFrame f received s) := by
  have hunting : PlanLaw (setRx .hunt s) := planLaw_blockLaw h rfl
  have restarted : PlanLaw (restartSilence (setRx .hunt s)) := h.congr rfl
  unfold judgeFrame
  dsimp only
  split
  · exact planLaw_blockLaw hunting (blocks_linkError _)
  · split
    · exact planLaw_blockLaw hunting (blocks_linkError _)
    · split
      · exact planLaw_blockLaw restarted (by simp)
      · exact planLaw_offerRequest restarted f

theorem planLaw_receiveByte {s : State} (h : PlanLaw s) (b : Byte) : PlanLaw (receiveByte b s) := by
  unfold receiveByte
  dsimp only
  split
  · exact planLaw_blockLaw h rfl
  · exact planLaw_blockLaw h (by simp)
  · exact planLaw_judgeFrame (planLaw_blockLaw h rfl) _ _

theorem planLaw_receiveFaulty {s : State} (h : PlanLaw s) : PlanLaw (receiveFaulty s) := by
  unfold receiveFaulty
  dsimp only
  split
  · exact planLaw_blockLaw h rfl
  · exact planLaw_blockLaw (s := s) h (by rw [blocks_abandon]; rfl)

/-- A command or a step answers a next state, and one that meets the plan law. -/
def AnswersPlanLaw (o : Out) : Prop := ∃ t, o = .next t ∧ PlanLaw t

theorem answersPlanLaw_next {t : State} (h : PlanLaw t) : AnswersPlanLaw (.next t) := ⟨t, rfl, h⟩

theorem answersPlanLaw_ite {b : Prop} [Decidable b] {s k : State} (hk : PlanLaw k) (hs : PlanLaw s) :
    AnswersPlanLaw (.next (if b then k else s)) := by
  split
  · exact answersPlanLaw_next hk
  · exact answersPlanLaw_next hs

theorem answersPlanLaw_whenPowered {s k : State} (hs : PlanLaw s) (hk : PlanLaw k) : AnswersPlanLaw (whenPowered s k) :=
  answersPlanLaw_ite hs hk

theorem answersPlanLaw_onCharacter {k : State → State} (hk : ∀ {u}, PlanLaw u → PlanLaw (k u)) {s : State} (h : PlanLaw s) :
    AnswersPlanLaw (onCharacter k s) := by
  have seeking : PlanLaw { s with link := { s.link with front := .seeking } } := planLaw_blockLaw h rfl
  unfold onCharacter
  refine answersPlanLaw_whenPowered h ?_
  split
  · exact seeking
  · exact hk seeking
  · exact hk seeking

/-! ### The walker -/

/-- The fifth check on an action that names a channel. -/
theorem accepts_of_fits {s : State} {a : Action} {ch : ChanIx} (hc : a.channel? = some ch)
    (h : fitsKind s.chans.records a = true) : a.accepts (s.chan ch).kind = true := by
  rw [fitsKind, hc] at h
  exact h

/-- While SAFE is set an EMIT is suppressed (R98). -/
theorem handEmit_suppressed {ch : ChanIx} {slot : SlotIx} {cycle : CycleNo} {s : State}
    (hk : (Action.emit ch).accepts (s.chan ch).kind = true) (hs : s.safe.safe = true) :
    handEmit ch slot cycle s = some (s, []) := by
  unfold handEmit
  cases hc : s.chan ch with
  | level c => simp [hs]
  | burst c => simp [hs]
  | _ => rw [hc] at hk; cases hk

theorem handEmit_level {ch : ChanIx} {slot : SlotIx} {cycle : CycleNo} {s : State} {c : LevelChan} (hc : s.chan ch = .level c)
    (hs : s.safe.safe = false) :
    handEmit ch slot cycle s =
      some (reportFill ch (c.emit ch slot cycle).1.queue.length (s.setChan ch (.level (c.emit ch slot cycle).1)),
        (c.emit ch slot cycle).2) := by
  simp [handEmit, hc, hs]

theorem handEmit_burst {ch : ChanIx} {slot : SlotIx} {cycle : CycleNo} {s : State} {c : BurstChan} (hc : s.chan ch = .burst c)
    (hs : s.safe.safe = false) :
    handEmit ch slot cycle s =
      some (reportFill ch (c.emit s.now ch slot cycle).1.queue.length (s.setChan ch (.burst (c.emit s.now ch slot cycle).1)),
        (c.emit s.now ch slot cycle).2) := by
  simp [handEmit, hc, hs]

theorem handSample_sample {ch : ChanIx} {slot : SlotIx} {cycle : CycleNo} {s : State} {c : SampleChan}
    (hc : s.chan ch = .sample c) :
    handSample ch slot cycle s =
      some (s.setChan ch (.sample (c.append ch ⟨cycle, slot, c.cfg.run.read s.pins.lines⟩).1),
        (c.append ch ⟨cycle, slot, c.cfg.run.read s.pins.lines⟩).2) := by
  simp [handSample, hc]

theorem handOpen_edge {ch : ChanIx} {s : State} {c : EdgeChan} (hc : s.chan ch = .edge c) :
    handOpen ch s = some (s.setChan ch (.edge (c.openWindow s.pins.lines)), []) := by
  simp [handOpen, hc]

theorem handClose_edge {ch : ChanIx} {s : State} {c : EdgeChan} (hc : s.chan ch = .edge c) :
    handClose ch s = some (s.setChan ch (Channel.closeWindow (.edge c)), []) := by
  simp [handClose, hc]

/-- The reply to a QUEUE_PUT of the instant is no part of the view. -/
theorem planView_reportFill {ch : ChanIx} {n : Nat} {c : Channel} {s : State} (h : c.kind = (s.chan ch).kind) :
    (reportFill ch n (s.setChan ch c)).planView = s.planView :=
  (planView_of_blocks (blocks_reportFill _ _ _)).trans (planView_setChan h)

theorem handEmit_of_accepts {ch : ChanIx} {slot : SlotIx} {cycle : CycleNo} {s : State}
    (hk : (Action.emit ch).accepts (s.chan ch).kind = true) :
    ∃ t rs, handEmit ch slot cycle s = some (t, rs) ∧ t.planView = s.planView := by
  cases hs : s.safe.safe with
  | true => exact ⟨s, _, handEmit_suppressed hk hs, rfl⟩
  | false =>
    cases hc : s.chan ch with
    | level c => exact ⟨_, _, handEmit_level hc hs, planView_reportFill (hc ▸ rfl)⟩
    | burst c => exact ⟨_, _, handEmit_burst hc hs, planView_reportFill (hc ▸ rfl)⟩
    | _ => rw [hc] at hk; cases hk

theorem handSample_of_accepts {ch : ChanIx} {slot : SlotIx} {cycle : CycleNo} {s : State}
    (hk : (Action.sample ch).accepts (s.chan ch).kind = true) :
    ∃ t rs, handSample ch slot cycle s = some (t, rs) ∧ t.planView = s.planView := by
  cases hc : s.chan ch with
  | sample c => exact ⟨_, _, handSample_sample hc, planView_setChan (hc ▸ rfl)⟩
  | _ => rw [hc] at hk; cases hk

theorem handOpen_of_accepts {ch : ChanIx} {s : State} (hk : (Action.openWindow ch).accepts (s.chan ch).kind = true) :
    ∃ t rs, handOpen ch s = some (t, rs) ∧ t.planView = s.planView := by
  cases hc : s.chan ch with
  | edge c => exact ⟨_, _, handOpen_edge hc, planView_setChan (hc ▸ rfl)⟩
  | _ => rw [hc] at hk; cases hk

theorem handClose_of_accepts {ch : ChanIx} {s : State} (hk : (Action.closeWindow ch).accepts (s.chan ch).kind = true) :
    ∃ t rs, handClose ch s = some (t, rs) ∧ t.planView = s.planView := by
  cases hc : s.chan ch with
  | edge c => exact ⟨_, _, handClose_edge hc, planView_setChan (by rw [hc, Channel.kind_closeWindow])⟩
  | _ => rw [hc] at hk; cases hk

/-- A step whose channel fits is handed off, and no plan or kind of channel changes (R53 to R56). -/
theorem handOff_of_fits {slot : SlotIx} {st : Step} {cycle : CycleNo} {s : State}
    (h : fitsKind s.chans.records st.action = true) :
    ∃ t rs, handOff slot st cycle s = some (t, rs) ∧ t.planView = s.planView := by
  unfold handOff
  cases ha : st.action with
  | emit ch => exact handEmit_of_accepts (accepts_of_fits rfl (ha ▸ h))
  | sample ch => exact handSample_of_accepts (accepts_of_fits rfl (ha ▸ h))
  | openWindow ch => exact handOpen_of_accepts (accepts_of_fits rfl (ha ▸ h))
  | closeWindow ch => exact handClose_of_accepts (accepts_of_fits rfl (ha ▸ h))
  | mark => exact ⟨s, _, rfl, rfl⟩

theorem planLaw_settleFirings {s : State} (h : PlanLaw s) : PlanLaw (settleFirings s) := by
  unfold settleFirings
  split
  · exact h
  · exact planLaw_blockLaw h (by simp)

/-- The plan law with the walk moved on reads the view alone. -/
theorem planLaw_passed {s t : State} {p : SlotIx} {st : Step} (h : PlanLaw s) (hp : s.walk.pointer = some p)
    (hs : s.plans.activeTable.slots.get p = some st) (ht : t.planView = s.planView) :
    PlanLaw { t with walk := t.walk.passed st } := by
  have hnext := walkOnPlan_passed h hp hs
  have moved : PlanLaw { s with walk := s.walk.passed st } := by
    obtain ⟨hv, hpending, -⟩ := h
    exact ⟨hv, hpending, hnext⟩
  refine moved.congr ?_
  have hw : t.walk = s.walk := congrArg PlanView.walk ht
  have := congrArg (fun v => { v with walk := s.walk.passed st }) ht
  rw [hw]
  exact this

/-- STEP_FIRE meets a filled slot and a channel that fits. -/
theorem execStepFire_answers_planLaw {s : State} (h : PlanLaw s) : AnswersPlanLaw (execStepFire s) := by
  unfold execStepFire stepAtPointer
  split
  · exact answersPlanLaw_next h
  · cases hp : s.walk.pointer with
    | none => exact answersPlanLaw_next h
    | some p =>
      obtain ⟨st, htable, hst, hfits⟩ := h.step_fits hp
      rw [htable]
      cases s.engine.cycleStart with
      | none => exact answersPlanLaw_next h
      | some start =>
        have hslot : (s.plans.table s.plans.active).slots.get p = some st := hst
        simp only [hslot, Option.map_some]
        split
        · obtain ⟨t, rs, ht, hview⟩ := handOff_of_fits (slot := p) (cycle := s.walk.cycle.getD s.engine.cycle) hfits
          unfold fireStep
          rw [ht]
          exact answersPlanLaw_next (planLaw_settleFirings (planLaw_blockLaw (planLaw_passed h hp hst hview) rfl))
        · exact answersPlanLaw_next h

/-! ### All commands -/

theorem planLaw_confirmChannel {s : State} (h : PlanLaw s) (ch : ChanIx) : PlanLaw (confirmChannel ch s) := by
  unfold confirmChannel
  split
  · next c hc => exact planLaw_raiseAll (h.congr (planView_setChan (by rw [hc]; rfl))) _
  · exact h

theorem execReplySent_answers_planLaw {s : State} (h : PlanLaw s) : AnswersPlanLaw (execReplySent s) := by
  refine answersPlanLaw_ite ?_ h
  dsimp only
  split
  · exact planLaw_arbitrate (planLaw_serveHeld (planLaw_softReset _))
  · exact planLaw_arbitrateAfter (planLaw_serveHeld (planLaw_blockLaw (s := s) h (by simp))) _

theorem execNstopLow_answers_planLaw {s : State} (h : PlanLaw s) : AnswersPlanLaw (execNstopLow s) := by
  refine answersPlanLaw_whenPowered h ?_
  dsimp only
  split
  · exact h.congr rfl
  · exact planLaw_arbitrate (h.congr (planView_applyCause _ _))

theorem execHardwareResetEnd_answers_planLaw {s : State} (h : PlanLaw s) (samples : FirstSamples) (midCharacter : Bool) :
    AnswersPlanLaw (execHardwareResetEnd samples midCharacter s) := by
  unfold execHardwareResetEnd
  refine answersPlanLaw_next ?_
  cases s.hwReset with
  | none => exact h
  | some cause => exact planLaw_announceReset rfl rfl

theorem execSyncRisingEdge_answers_planLaw {s : State} (h : PlanLaw s) : AnswersPlanLaw (execSyncRisingEdge s) := by
  refine answersPlanLaw_whenPowered h ?_
  split
  · exact h
  · exact planLaw_arbitrate (planLaw_risingEdge (h.congr rfl))

/-- Every command keeps the plan law, and answers a next state where it holds. -/
theorem exec_answers_planLaw {s : State} (h : PlanLaw s) (c : Instr) : AnswersPlanLaw (exec c s) := by
  cases hf : requestFrame? c with
  | some f =>
    rw [exec_request hf]
    exact answersPlanLaw_next (planLaw_dispatch h f.kind)
  | none =>
    cases c
    case unknownKind seq kind body =>
      have hk : ¬ unknownKindCode kind = true := by simpa [requestFrame?] using hf
      show AnswersPlanLaw (execUnknownKind seq kind body s)
      rw [execUnknownKind, if_neg hk]
      exact answersPlanLaw_next h
    case requestFrameReceived b => exact answersPlanLaw_onCharacter (planLaw_receiveByte · b) h
    case ack b => exact answersPlanLaw_onCharacter (planLaw_receiveByte · b) h
    case frameDiscarded b => exact answersPlanLaw_onCharacter (planLaw_receiveByte · b) h
    case lengthByteAbove240 b => exact answersPlanLaw_onCharacter (planLaw_receiveByte · b) h
    case byteTaken b => exact answersPlanLaw_onCharacter (planLaw_receiveByte · b) h
    case framingError => exact answersPlanLaw_onCharacter planLaw_receiveFaulty h
    case gapLimit => exact answersPlanLaw_ite (planLaw_blockLaw h (blocks_abandon s)) h
    case replySent => exact execReplySent_answers_planLaw h
    case noticeFrameSent => exact answersPlanLaw_ite (planLaw_blockLaw h (blocks_arbitrate _)) h
    case hardwareResetBegin cause => exact answersPlanLaw_next (planLaw_of_emptied rfl rfl)
    case hardwareResetEnd samples midCharacter => exact execHardwareResetEnd_answers_planLaw h samples midCharacter
    case periodBoundary => exact answersPlanLaw_ite (planLaw_arbitrate (planLaw_boundary h _ _)) h
    case syncRisingEdge => exact execSyncRisingEdge_answers_planLaw h
    case syncDeadline => exact answersPlanLaw_ite (planLaw_arbitrate (planLaw_boundary h _ _)) h
    case flywheelBoundary => exact answersPlanLaw_ite (planLaw_arbitrate (planLaw_boundary h _ _)) h
    case stepFire => exact execStepFire_answers_planLaw h
    case burstOnPhaseEnd ch => exact answersPlanLaw_ite (h.congr (planView_setChan (Channel.kind_onBurst _ _))) h
    case burstOffPhaseEnd ch => exact answersPlanLaw_ite (h.congr (planView_setChan (Channel.kind_onBurst _ _))) h
    case edgeLineChange levels =>
      exact answersPlanLaw_whenPowered (h.congr rfl) (h.congr (planView_mapRecords (Channel.kind_sampled _ _) _))
    case debounceConfirmed ch => exact answersPlanLaw_ite (planLaw_arbitrate (planLaw_confirmChannel h ch)) h
    case nstopLow => exact execNstopLow_answers_planLaw h
    case nstopHigh => exact answersPlanLaw_whenPowered h (h.congr rfl)
    case silenceTimerExpiry => exact answersPlanLaw_ite (planLaw_arbitrate (h.congr (planView_applyCause _ _))) h
    case retransmitTimerExpiry => exact answersPlanLaw_ite (planLaw_blockLaw h (blocks_arbitrate _)) h
    case syncFallingEdge => exact answersPlanLaw_whenPowered h (h.congr rfl)
    all_goals cases hf

theorem planLaw_idle {s : State} (h : PlanLaw s) : PlanLaw (idle s) := by
  unfold idle
  split
  · exact h
  · split
    · exact planLaw_blockLaw h (blocks_takeRaised s)
    · split
      · exact planLaw_arbitrate h
      · exact h.congr rfl

/-- Every step keeps the plan law, and answers a next state where it holds. -/
theorem step_answers_planLaw {s : State} (h : PlanLaw s) : AnswersPlanLaw (step s) := by
  unfold step
  split
  · next c rest _ => exact exec_answers_planLaw (s := { s with pending := rest }) (planLaw_blockLaw h rfl) c
  · split
    · next c u hn =>
      obtain ⟨i, -, he⟩ := Option.map_eq_some_iff.1 hn
      cases he
      exact exec_answers_planLaw (planLaw_blockLaw h (blocks_choose _ s)) _
    · exact answersPlanLaw_next (planLaw_idle h)

/-- Settles O52: the next state that every step answers meets the law. -/
theorem planLawKept : Obligations.PlanLawKept := by
  intro s t h hstep
  obtain ⟨u, hu, hlaw⟩ := step_answers_planLaw h
  rw [hu] at hstep
  cases hstep
  exact hlaw

/-- Settles O53: no fault and no refusal is among the answers. -/
theorem planLawExcludesFaults : Obligations.PlanLawExcludesFaults := fun _ h =>
  let ⟨t, ht, _⟩ := step_answers_planLaw h
  ⟨t, ht⟩

end Sys2Proof.Machine
end

section
/-! PROOFS. The plan requests (chapter 1): reading the fields of their bodies, and what each of them does to the Plan Store. -/

namespace Sys2Proof.Machine

/-! ### Fields of a body (R182) -/

@[simp] theorem byteOf_toNat (n : Nat) : (byteOf n).toNat = n % 256 := by simp [byteOf]

theorem ixByte_toNat {n : Nat} (h : n ≤ 256) (i : Fin n) : (ixByte i).toNat = i.val := by
  simp only [ixByte, byteOf_toNat]
  exact Nat.mod_eq_of_lt (i.isLt.trans_le h)

/-- A channel number reads back. -/
theorem chanAt_of_ixByte {body : List Byte} {i : Nat} {ch : ChanIx} (h : byteAt body i = ixByte ch) : chanAt body i = some ch := by
  have hn : natAt body i = ch.val := by rw [natAt, h, ixByte_toNat (by omega)]
  simp [chanAt, hn]

theorem chanAt_none {body : List Byte} {i : Nat} (h : 15 < natAt body i) : chanAt body i = none := by
  simp only [chanAt, dif_neg (Nat.not_lt.2 h)]

/-- A slot reads back. -/
theorem slotAt_of_ixByte {body : List Byte} {i : Nat} {p : SlotIx} (h : byteAt body i = ixByte p) : slotAt body i = some p := by
  have hn : natAt body i = p.val := by rw [natAt, h, ixByte_toNat (by omega)]
  simp [slotAt, hn]

theorem slotAt_none {body : List Byte} {i : Nat} (h : 47 < natAt body i) : slotAt body i = none := by
  simp only [slotAt, dif_neg (Nat.not_lt.2 h)]

theorem ixByte_ne_none (p : SlotIx) : ixByte p ≠ noneByte := by
  intro h
  have := congrArg BitVec.toNat h
  rw [ixByte_toNat (by omega)] at this
  simp [noneByte] at this
  omega

/-- A slot or none reads back. -/
theorem slotOrNoneAt_of_slotByte {body : List Byte} {i : Nat} {h : Option SlotIx} (hb : byteAt body i = slotByte h) :
    slotOrNoneAt body i = some h := by
  cases h with
  | none => simp [slotOrNoneAt, hb, slotByte]
  | some p => simp [slotOrNoneAt, hb, slotByte, ixByte_ne_none, slotAt_of_ixByte hb]

theorem slotOrNoneAt_none {body : List Byte} {i : Nat} (h : 47 < natAt body i) (hn : byteAt body i ≠ noneByte) :
    slotOrNoneAt body i = none := by
  simp [slotOrNoneAt, hn, slotAt_none h]

/-- A four-byte number reads back. -/
theorem read32_of_le32 {body : List Byte} {i n : Nat} (hn : n < 4294967296)
    (hb : [byteAt body i, byteAt body (i + 1), byteAt body (i + 2), byteAt body (i + 3)] = le32 n) : read32 body i = n := by
  simp only [le32, List.cons.injEq, and_true] at hb
  obtain ⟨h0, h1, h2, h3⟩ := hb
  simp only [read32, read16, natAt, h0, h1, h2, h3, byteOf_toNat]
  omega

/-! ### Actions (R2, R6) -/

/-- An action reads back from its code and its channel field. -/
theorem actionOf_of_code {body : List Byte} {i : Nat} {a : Action} (hc : byteAt body i = a.code)
    (hb : byteAt body (i + 1) = a.channelByte) : actionOf body i = some a := by
  cases a with
  | mark => simp [actionOf, natAt, hc, Action.code, hb, Action.channelByte, Action.channel?]
  | _ => simp [actionOf, natAt, hc, Action.code, chanAt_of_ixByte hb]

theorem actionOf_none_of_code {body : List Byte} {i : Nat} (h : 4 < natAt body i) : actionOf body i = none := by
  obtain ⟨n, hn⟩ := Nat.exists_eq_add_of_le' h
  rw [actionOf, hn]
  rfl

theorem actionOf_none_of_mark {body : List Byte} {i : Nat} (h : natAt body i = 4) (hc : byteAt body (i + 1) ≠ noneByte) :
    actionOf body i = none := by
  simp [actionOf, h, hc]

theorem actionOf_none_of_channel {body : List Byte} {i : Nat} (h : natAt body i < 4) (hc : 15 < natAt body (i + 1)) :
    actionOf body i = none := by
  rw [actionOf, chanAt_none hc]
  generalize natAt body i = n at h
  interval_cases n <;> rfl

/-! ### STEP_PUT bodies (R6) -/

theorem parseStep_stepBody {p : SlotIx} {st : Step} (h : st.offset ≤ 999999) : parseStep (stepBody p st) = some (p, st) := by
  have hslot : slotAt (stepBody p st) 0 = some p := slotAt_of_ixByte rfl
  have haction : actionOf (stepBody p st) 5 = some st.action := actionOf_of_code rfl rfl
  have hnext : slotOrNoneAt (stepBody p st) 8 = some st.next := slotOrNoneAt_of_slotByte rfl
  have hoffset : read32 (stepBody p st) 1 = st.offset := read32_of_le32 (by omega) rfl
  simp only [parseStep, hslot, haction, hnext, hoffset, if_pos (show st.offset ≤ Config.offsetMax from h)]
  rfl

/-- A field that does not read is out of range. -/
theorem parseStep_none {body : List Byte}
    (h : slotAt body 0 = none ∨ Config.offsetMax < read32 body 1 ∨ actionOf body 5 = none ∨ slotOrNoneAt body 8 = none) :
    parseStep body = none := by
  unfold parseStep
  split
  · next hs ha hn =>
    obtain h | h | h | h := h
    · rw [hs] at h; cases h
    · exact if_neg (Nat.not_le.2 h)
    · rw [ha] at h; cases h
    · rw [hn] at h; cases h
  · rfl

/-! ### Answers -/

/-- A request that raises no notice: the effect and the reply of its carrying out, and then the arbiter (R166, R171, R175). -/
theorem exec_answered {c : Instr} {f : Frame} {s u : State} {body : List Byte} (hc : requestFrame? c = some f)
    (h : TakenAsNew f s) (ha : carryOf f.kind f.body s.taken = (u.taken, body)) (hn : noticeReady u = noticeReady s) :
    exec c s = AnsweredFrom u f body := by
  rw [exec_request hc, dispatch_quiet h ha hn]
  rfl

/-- An edit with no swap pending changes the standby plan (R5). -/
theorem editStandby_open {s : State} (h : s.plans.swapPending = false) (edit : PlanTable → PlanTable) :
    editStandby edit s.taken =
      (({ s with plans := s.plans.setStandby (edit s.plans.standby) } : State).taken, [0x00, s.plans.active.other.code]) :=
  if_neg (Bool.eq_false_iff.1 h)

/-- An edit with a swap pending is refused (R5). -/
theorem editStandby_pending {s : State} (h : s.plans.swapPending = true) (edit : PlanTable → PlanTable) :
    editStandby edit s.taken = (s.taken, [0x21, s.plans.active.other.code]) := if_pos h

/-! ### Edits -/

theorem carryStepPut_stepBody {p : SlotIx} {st : Step} (h : st.offset ≤ 999999) (s : State) :
    carryStepPut (stepBody p st) s = editStandby (PlanTable.setSlot p (some st)) s := by
  simp only [carryStepPut, parseStep_stepBody h]
  rfl

theorem carryStepDrop_ixByte (p : SlotIx) (s : State) :
    carryStepDrop [ixByte p] s = editStandby (PlanTable.setSlot p none) s := by
  have hp : slotAt [ixByte p] 0 = some p := slotAt_of_ixByte rfl
  simp only [carryStepDrop, hp]
  rfl

theorem carryPlanHead_slotByte (h : Option SlotIx) (s : State) :
    carryPlanHead [slotByte h] s = editStandby (fun t => { t with head := h }) s := by
  have hh : slotOrNoneAt [slotByte h] 0 = some h := slotOrNoneAt_of_slotByte rfl
  simp only [carryPlanHead, hh]
  rfl

theorem carryPlanClear_nil (s : State) : carryPlanClear [] s = editStandby (fun _ => PlanTable.empty) s := rfl

theorem carryPlanCopy_nil (s : State) : carryPlanCopy [] s = editStandby (fun _ => s.plans.activeTable) s := rfl

/-- Settles O8: the body reads back as the slot and the step. -/
theorem stepPutWritesSlot : Obligations.StepPutWritesSlot := fun _ _ _ s ho hp h =>
  exec_answered rfl h ((carryStepPut_stepBody ho s.taken).trans (editStandby_open hp _)) rfl

/-- Settles O9: each of the six cases leaves one field that does not read. -/
theorem stepPutRangeRefused : Obligations.StepPutRangeRefused := by
  intro seq slot o0 o1 o2 o3 action chan tag next s body h hbad
  have hnone : parseStep body = none := by
    apply parseStep_none
    obtain hs | ho | ha | ⟨ha, hc⟩ | ⟨ha, hc⟩ | ⟨hn, hnn⟩ := hbad
    · exact .inl (slotAt_none hs)
    · have hr : read32 body 1 = (o0.toNat + 256 * o1.toNat) + 65536 * (o2.toNat + 256 * o3.toNat) := rfl
      exact .inr (.inl (by rw [hr]; show 999999 < _; omega))
    · exact .inr (.inr (.inl (actionOf_none_of_code ha)))
    · exact .inr (.inr (.inl (actionOf_none_of_mark (congrArg BitVec.toNat ha) hc)))
    · exact .inr (.inr (.inl (actionOf_none_of_channel ha hc)))
    · exact .inr (.inr (.inr (slotOrNoneAt_none hn hnn)))
  have hcarry : carryStepPut body s.taken = answer statusBadValue s.taken := by
    simp only [carryStepPut, hnone]
    rfl
  exact exec_answer (c := .stepPut seq body) rfl h hcarry

/-- Settles O10: with no swap pending each edit reaches the standby plan. -/
theorem standbyEdits : Obligations.StandbyEdits := by
  refine fun seq s => ⟨fun b hb => ⟨fun h => ?_, fun hn h => ?_⟩, fun hp => ⟨fun p h => ?_, fun hd h => ?_, fun h => ?_, fun h => ?_⟩⟩
  · have hcarry : carryStepDrop [b] s.taken = answer statusBadValue s.taken := by
      simp only [carryStepDrop, slotAt_none (body := [b]) (i := 0) hb]
      rfl
    exact exec_answer rfl h hcarry
  · have hcarry : carryPlanHead [b] s.taken = answer statusBadValue s.taken := by
      simp only [carryPlanHead, slotOrNoneAt_none (body := [b]) (i := 0) hb hn]
      rfl
    exact exec_answer rfl h hcarry
  · exact exec_answered rfl h ((carryStepDrop_ixByte p s.taken).trans (editStandby_open hp _)) rfl
  · exact exec_answered rfl h ((carryPlanHead_slotByte hd s.taken).trans (editStandby_open hp _)) rfl
  · exact exec_answered rfl h ((carryPlanClear_nil s.taken).trans (editStandby_open hp _)) rfl
  · exact exec_answered rfl h ((carryPlanCopy_nil s.taken).trans (editStandby_open hp _)) rfl

/-- Settles O11: every edit that reads its body goes through the one refusal. -/
theorem editsRefusedWhilePending : Obligations.EditsRefusedWhilePending := fun _ p _ hd s ho hp =>
  ⟨fun h => exec_answered (u := s) rfl h ((carryStepPut_stepBody ho s.taken).trans (editStandby_pending hp _)) rfl,
    fun h => exec_answered (u := s) rfl h ((carryStepDrop_ixByte p s.taken).trans (editStandby_pending hp _)) rfl,
    fun h => exec_answered (u := s) rfl h ((carryPlanHead_slotByte hd s.taken).trans (editStandby_pending hp _)) rfl,
    fun h => exec_answered (u := s) rfl h ((carryPlanClear_nil s.taken).trans (editStandby_pending hp _)) rfl,
    fun h => exec_answered (u := s) rfl h ((carryPlanCopy_nil s.taken).trans (editStandby_pending hp _)) rfl⟩

/-! ### Reading -/

/-- The table that a selector names (R11). -/
theorem selectTable_of_names {plans : PlanStore} {selector : Byte} {id : TableId}
    (h : selector = id.code ∨ (selector = 2 ∧ id = plans.active) ∨ (selector = 3 ∧ id = plans.active.other)) :
    selectTable plans selector.toNat = some id := by
  obtain rfl | ⟨rfl, rfl⟩ | ⟨rfl, rfl⟩ := h
  · cases id <;> rfl
  · rfl
  · rfl

theorem selectTable_none {plans : PlanStore} {n : Nat} (h : 3 < n) : selectTable plans n = none := by
  obtain ⟨m, rfl⟩ := Nat.exists_eq_add_of_le' h
  rfl

theorem carryPlanRead_ixByte {s : State} {selector : Byte} {id : TableId} (p : SlotIx)
    (ht : selectTable s.plans selector.toNat = some id) :
    carryPlanRead [selector, ixByte p] s =
      (s, [0x00, id.code, flagByte (id == s.plans.active), flagByte s.plans.swapPending, slotByte (s.plans.table id).head,
        ixByte p] ++ slotBytes ((s.plans.table id).slots.get p)) := by
  have hp : slotAt [selector, ixByte p] 1 = some p := slotAt_of_ixByte rfl
  have hn : natAt [selector, ixByte p] 0 = selector.toNat := rfl
  simp only [carryPlanRead, hp, hn, ht]
  rfl

/-- Settles O12: the selector and the slot read back, or one of them is out of range. -/
theorem planReadReports : Obligations.PlanReadReports := by
  refine fun seq selector slot s h => ⟨fun id p hslot hsel => ?_, fun hbad => ?_⟩
  · subst hslot
    refine exec_answered (u := s) rfl h ((carryPlanRead_ixByte (s := s.taken) p (selectTable_of_names hsel)).trans ?_) rfl
    show (s.taken, _ ++ slotBytes ((s.plans.table id).slots.get p)) = _
    cases (s.plans.table id).slots.get p <;> rfl
  · have hcarry : carryPlanRead [selector, slot] s.taken = answer statusBadValue s.taken := by
      obtain hs | hp := hbad
      · simp only [carryPlanRead, selectTable_none (plans := s.taken.plans) (show 3 < natAt [selector, slot] 0 from hs)]
        rfl
      · simp only [carryPlanRead, slotAt_none (show 47 < natAt [selector, slot] 1 from hp)]
        cases selectTable s.taken.plans (natAt [selector, slot] 0) <;> rfl
    exact exec_answer rfl h hcarry

/-! ### Committing -/

theorem carryPlanCommit_pending {s : State} (hp : s.plans.swapPending = true) :
    carryPlanCommit [] s = answer statusSwapPending s := if_pos hp

theorem carryPlanCommit_invalid {s : State} {check : PlanCheck} {p : SlotIx} (hp : s.plans.swapPending = false)
    (hv : validate s.plans.standby s.engine.period s.chans.records = .error (check, p)) :
    carryPlanCommit [] s = (s, [statusPlanInvalid, check.code, ixByte p]) := by
  simp [carryPlanCommit, withLength, hp, hv]

/-- In STOPPED the swap is made at once (R16). -/
theorem carryPlanCommit_stopped {s : State} {n : Nat} (hp : s.plans.swapPending = false)
    (hv : validate s.plans.standby s.engine.period s.chans.records = .ok n) (he : s.engine.state = .stopped) :
    carryPlanCommit [] s =
      (raiseAll [swapNotice s.plans.swapped s.engine.cycle] { s with plans := s.plans.swapped },
        [0x00, 0x00, s.plans.active.other.code, byteOf n]) := by
  simp only [carryPlanCommit, withLength, hp, hv, he]
  rfl

/-- In ARMED and RUNNING the swap becomes pending (R17). -/
theorem carryPlanCommit_running {s : State} {n : Nat} (hp : s.plans.swapPending = false)
    (hv : validate s.plans.standby s.engine.period s.chans.records = .ok n) (he : s.engine.state ≠ .stopped) :
    carryPlanCommit [] s =
      ({ s with plans := { s.plans with swapPending := true } }, [0x00, 0x01, s.plans.active.other.code, byteOf n]) := by
  simp only [carryPlanCommit, withLength, hp, hv, he]
  rfl

/-- A swap with no flag to clear changes the roles alone. -/
theorem PlanStore.swapped_of_notPending {p : PlanStore} (h : p.swapPending = false) :
    p.swapped = { p with active := p.active.other } := by
  rw [PlanStore.swapped, ← h]

/-- Settles O13: the outcomes of validation, and the flag. -/
theorem commitAndCancel : Obligations.CommitAndCancel := by
  refine fun seq s => ⟨fun h => ⟨fun hp => ?_, fun hp => ?_⟩, fun h => ⟨fun hp => ?_, fun check p hp hv => ?_, fun n hp hv =>
    ⟨fun he => ?_, fun he => ⟨_, rfl, ?_⟩⟩⟩⟩
  · exact exec_answered rfl h (if_pos hp) rfl
  · exact exec_answer rfl h (if_neg (Bool.eq_false_iff.1 hp))
  · exact exec_answer rfl h (carryPlanCommit_pending hp)
  · exact exec_answered (u := s) rfl h (carryPlanCommit_invalid (s := s.taken) hp hv) rfl
  · exact exec_answered rfl h (carryPlanCommit_running (s := s.taken) hp hv he) rfl
  · have hw : s.hwReset = none := hwReset_of_canTake h.1
    have hraised := dispatch_raising h (carryPlanCommit_stopped (s := s.taken) hp hv he) rfl hw rfl
    rw [← PlanStore.swapped_of_notPending hp]
    exact hraised

end Sys2Proof.Machine
end

section
/-! PROOFS. STOP, and the boundaries of the Cycle Engine (chapter 2), as changes of the state with the notices they raise. -/

namespace Sys2Proof.Machine

/-! ### Words of the proofs and of the statements -/

theorem swapRaised_eq (s : State) :
    swapRaised s = if s.plans.swapPending then
      [{ kind := .planSwapped, subject := some s.plans.active.other.code, detail := 0, cycle := s.engine.cycle }] else [] := rfl

/-- The WALK_CUT of a walk that is not DONE (R57). -/
theorem endWalk_raised (s : State) :
    (endWalk s).2 = if s.walk.pointer.isSome then
      [{ kind := .walkCut, subject := none, detail := s.walk.remaining, cycle := s.walkCycle }] else [] := by
  unfold endWalk
  cases s.walk.pointer <;> rfl

theorem closeWindow_edge (c : EdgeChan) :
    (Channel.edge c).closeWindow =
      .edge (if c.window = .opened then { c with window := .closed, debounces := noDebounces } else c) :=
  (apply_ite Channel.edge _ _ _).symm

theorem cutBurst_burst (c : BurstChan) :
    (Channel.burst c).cutBurst = .burst (if c.burst.isSome then { c with value := c.cfg.idle, burst := none } else c) :=
  (apply_ite Channel.burst _ _ _).symm

/-- What a STOP AT_BOUNDARY does to a channel: windows close (R115) and bursts play on (R103). -/
theorem atStop_false (c : Channel) :
    c.atStop false = match c with
      | .edge c => .edge (if c.window = .opened then { c with window := .closed, debounces := noDebounces } else c)
      | c => c := by
  cases c with
  | edge c => exact closeWindow_edge c
  | _ => rfl

/-- What a STOP NOW does to a channel: bursts are cut as well (R102). -/
theorem atStop_true (c : Channel) :
    c.atStop true = match c with
      | .burst c => .burst (if c.burst.isSome then { c with value := c.cfg.idle, burst := none } else c)
      | .edge c => .edge (if c.window = .opened then { c with window := .closed, debounces := noDebounces } else c)
      | c => c := by
  cases c with
  | edge c => exact closeWindow_edge c
  | burst c => exact congrArg Channel.closeWindow (cutBurst_burst c)
  | _ => rfl

/-- Entry into STOPPED, with what it does to a channel spelled out. -/
theorem entersStopped_eq {now : Bool} {s : State} {f : Channel → Channel} (h : ∀ c : Channel, c.atStop now = f c) :
    s.entersStopped now = { s with
      plans := s.plans.afterSwap, engine := s.engine.entersStopped, walk := Walk.absent, chans := s.chans.mapRecords f } := by
  rw [State.entersStopped, funext h]

/-- The notices raised from a state that differs only where there are notices on their way. -/
theorem RaisedFrom.of_eq {u v t : State} {rs rs' : List Raised} (h : RaisedFrom v t rs) (hb : v.besideNotices = u.besideNotices)
    (he : u.raising = [] → v = u) (hrs : rs = rs') : RaisedFrom u t rs' := by
  subst hrs
  exact ⟨h.1.trans hb, fun hr => (he hr ▸ h).2 hr⟩

theorem RaisedFrom.congr {u v t : State} {rs rs' : List Raised} (h : RaisedFrom v t rs) (he : v = u) (hrs : rs = rs') :
    RaisedFrom u t rs' := h.of_eq (he ▸ rfl) (fun _ => he) hrs

/-- A state that holds the same beside notices differs in those fields alone. -/
theorem exists_of_besideNotices {s t : State} (h : t.besideNotices = s.besideNotices) :
    ∃ n rs k x slot, slot.staged = s.disp.slot.staged ∧ t = { s with
      notices := n, raising := rs, choices := k, link := { s.link with tx := x }, disp := { s.disp with slot := slot } } := by
  obtain ⟨⟩ := s
  obtain ⟨⟩ := t
  rename_i l₁ d₁ _ _ _ _ _ _ _ _ _ _ _ _ _ _ l₂ d₂ _ _ _ _ _ _
  obtain ⟨⟩ := l₁
  obtain ⟨⟩ := l₂
  obtain ⟨⟩ := d₁
  obtain ⟨⟩ := d₂
  simp only [State.besideNotices, State.mk.injEq, HostLink.mk.injEq, Dispatcher.mk.injEq] at h
  obtain ⟨rfl, rfl, rfl, rfl, rfl, rfl, rfl, -, ⟨rfl, rfl, rfl, rfl, rfl, -⟩, ⟨hs, rfl⟩, rfl, -, -, rfl, rfl, rfl⟩ := h
  exact ⟨_, _, _, _, _, hs, rfl⟩

/-! ### STOP -/

theorem flagAt_zero : flagAt [(0 : Byte)] 0 = some false := rfl
theorem flagAt_one : flagAt [(1 : Byte)] 0 = some true := rfl

theorem flagAt_none {body : List Byte} {i : Nat} (h : 1 < natAt body i) : flagAt body i = none := by
  rw [flagAt, if_neg (by omega), if_neg (by omega)]

/-- A byte of at most 1 is a flag. -/
theorem byte_le_one {b : Byte} (h : b.toNat ≤ 1) : b = 0 ∨ b = 1 := by
  rcases Nat.le_one_iff_eq_zero_or_eq_one.1 h with h | h
  · exact .inl (BitVec.eq_of_toNat_eq h)
  · exact .inr (BitVec.eq_of_toNat_eq h)

/-- The reply of a STOP that its flag lets pass: the engine as the request left it (R41). -/
theorem carryStop_flag {s : State} {when : Byte} {now : Bool} (h : flagAt [when] 0 = some now) :
    carryStop [when] s = (stopEngine now s,
      [0x00, (stopEngine now s).engine.state.code, flagByte (stopEngine now s).engine.stopPending]
        ++ le32 (stopEngine now s).engine.cycle.toNat) := by
  simp only [carryStop, h]
  rfl

/-- The engine once it has entered STOPPED. -/
theorem enterStopped_engine (now : Bool) (cut : List Raised) (s : State) :
    (enterStopped now cut s).engine = s.engine.entersStopped := by
  have h := State.besideNotices_raiseAll (swapRaised s ++ stoppedNotice now s :: cut) (s.entersStopped now)
  rw [← enterStopped_eq] at h
  exact congrArg State.engine h

/-- A STOP that stops the engine: what it changes, and what it raises and answers. -/
theorem carryStop_stops {s : State} {when : Byte} {now : Bool} (h : flagAt [when] 0 = some now)
    (he : stopEngine now s = enterStopped now [] s) :
    carryStop [when] s = (raiseAll (swapRaised s ++ [stoppedNotice now s]) (s.entersStopped now),
      [0x00, 0x00, 0x00] ++ le32 s.engine.cycle.toNat) := by
  rw [carryStop_flag h, he, enterStopped_engine, enterStopped_eq]
  rfl

/-- A STOP that stops the engine is answered behind its effect, and raises its notices. -/
theorem exec_stop_raised {seq when : Byte} {now : Bool} {s : State} (h : TakenAsNew ⟨seq, 0x06, [when]⟩ s)
    (hf : flagAt [when] 0 = some now) (he : stopEngine now s.taken = enterStopped now [] s.taken) :
    ∃ t, exec (.stop seq [when]) s = .next t ∧
      RaisedFrom ((s.entersStopped now).replied ⟨seq, 0x06, [when]⟩ ([0x00, 0x00, 0x00] ++ le32 s.engine.cycle.toNat)) t
        (swapRaised s ++ [stoppedNotice now s]) := by
  have hw : s.hwReset = none := hwReset_of_canTake h.1
  have hraised := dispatch_raising h (carryStop_stops hf he) rfl hw rfl
  exact ⟨_, rfl, hraised⟩

/-- Settles O17: the outcomes of STOP by the engine state and the *when* field. -/
theorem stopOutcomes : Obligations.StopOutcomes := by
  refine fun seq when s h => ⟨fun hw => ?_, fun hw he => ?_, fun hw he => ?_, fun hw => ?_⟩
  · refine exec_answer rfl h ?_
    show carryStop [when] s.taken = _
    simp only [carryStop, flagAt_none (body := [when]) (i := 0) hw]
    rfl
  · have stays : ∀ now, stopEngine now s.taken = s.taken := fun now => by
      rw [stopEngine, show s.taken.engine.state = .stopped from he]
    refine exec_answered (u := s) rfl h ?_ rfl
    show carryStop [when] s.taken = _
    obtain rfl | rfl := byte_le_one hw
    · rw [carryStop_flag flagAt_zero, stays, show s.taken.engine.state = .stopped from he]; rfl
    · rw [carryStop_flag flagAt_one, stays, show s.taken.engine.state = .stopped from he]; rfl
  · subst hw
    have pends : stopEngine false s.taken = ({ s with engine := { s.engine with stopPending := true } } : State).taken := by
      rw [stopEngine, show s.taken.engine.state = .running from he]
      rfl
    refine exec_answered rfl h ?_ rfl
    show carryStop [0] s.taken = _
    rw [carryStop_flag flagAt_zero, pends]
    simp only [State.taken, he]
    rfl
  · have stops : ∀ now, (now = true ∧ s.engine.state = .running) ∨ s.engine.state = .armed →
        stopEngine now s.taken = enterStopped now [] s.taken := by
      rintro now (⟨rfl, he⟩ | he)
      · rw [stopEngine, show s.taken.engine.state = .running from he]; rfl
      · rw [stopEngine, show s.taken.engine.state = .armed from he]
    have hle : when.toNat ≤ 1 := by
      obtain ⟨rfl, -⟩ | ⟨hle, -⟩ := hw
      · decide
      · exact hle
    obtain rfl | rfl := byte_le_one hle
    · have he : s.engine.state = .armed := hw.elim (fun h => absurd h.1 (by decide)) And.right
      obtain ⟨t, ht, hraised⟩ := exec_stop_raised h flagAt_zero (stops false (.inr he))
      refine ⟨t, ht, hraised.congr (congrArg (State.replied _ _) (entersStopped_eq fun c => ?_)) rfl⟩
      rw [atStop_false]
      cases c <;> rfl
    · obtain ⟨t, ht, hraised⟩ := exec_stop_raised h flagAt_one (stops true (hw.imp (fun h => ⟨rfl, h.2⟩) And.right))
      refine ⟨t, ht, hraised.congr (congrArg (State.replied _ _) (entersStopped_eq fun c => ?_)) rfl⟩
      rw [atStop_true]
      cases c with
      | burst c => simp
      | _ => rfl

/-! ### The occasions of a boundary -/

theorem exec_periodBoundary {s : State} (hw : s.hwReset = none) (he : s.engine.state = .running) (hm : s.engine.mode = .free)
    (hn : s.engine.nextBoundary = some s.now) :
    exec .periodBoundary s = .next (arbitrate (boundary s.engine.flywheel none s)) := by
  have hd : periodDue s = true := by simp [periodDue, boundaryDue, hw, he, hm, hn]
  exact congrArg Host.Outcome.next (if_pos hd)

theorem exec_syncDeadline {s : State} (hw : s.hwReset = none) (he : s.engine.state = .running) (hm : s.engine.mode = .sync)
    (hf : s.engine.flywheel = false) (hn : s.engine.nextBoundary = some s.now) :
    exec .syncDeadline s = .next (arbitrate (boundary true (some .syncLost) s)) := by
  have hd : deadlineDue s = true := by simp [deadlineDue, boundaryDue, hw, he, hm, hf, hn]
  exact congrArg Host.Outcome.next (if_pos hd)

theorem exec_flywheelBoundary {s : State} (hw : s.hwReset = none) (he : s.engine.state = .running) (hm : s.engine.mode = .sync)
    (hf : s.engine.flywheel = true) (hn : s.engine.nextBoundary = some s.now) :
    exec .flywheelBoundary s = .next (arbitrate (boundary true none s)) := by
  have hd : flywheelDue s = true := by simp [flywheelDue, boundaryDue, hw, he, hm, hf, hn]
  exact congrArg Host.Outcome.next (if_pos hd)

/-- The state with SYNC sampled high. -/
def State.syncHigh (s : State) : State := { s with pins := { s.pins with sync := .high } }

/-- A sample that finds SYNC high after a low one is a rising edge (R35). -/
theorem exec_syncRisingEdge_low {s : State} (hw : s.hwReset = none) (hp : s.pins.sync = .low) :
    exec .syncRisingEdge s = .next (arbitrate (risingEdge s.syncHigh)) := by
  have powered : ¬ s.hwReset.isSome = true := by simp [hw]
  have low : ¬ s.pins.sync = .high := by simp [hp]
  exact congrArg Host.Outcome.next ((if_neg powered).trans (if_neg low))

/-- The source of the boundary of a rising edge: SYNC_REGAINED while flywheel is set (R36, R39). -/
theorem exec_syncRisingEdge_running {s : State} (hw : s.hwReset = none) (he : s.engine.state = .running)
    (hm : s.engine.mode = .sync) (hp : s.pins.sync = .low) :
    exec .syncRisingEdge s =
      .next (arbitrate (boundary false (if s.engine.flywheel then some .syncRegained else none) s.syncHigh)) := by
  rw [exec_syncRisingEdge_low hw hp, risingEdge, show s.syncHigh.engine.mode = .sync from hm,
    show s.syncHigh.engine.state = .running from he]
  show Host.Outcome.next (arbitrate (if s.engine.flywheel = true then _ else _)) = _
  split <;> rfl

/-! ### A boundary with stop pending -/

/-- A stop at a boundary raises its notices from the state that has entered STOPPED (R42, R61). -/
theorem raisedFrom_stopAtBoundary {s : State} (hw : s.hwReset = none) (hs : s.engine.stopPending = true) (flywheel : Bool)
    (source : Option NoticeKind) :
    RaisedFrom (s.entersStopped false) (arbitrate (boundary flywheel source s))
      (swapRaised s ++ stoppedNotice false s :: (endWalk s).2) := by
  rw [boundary, if_pos hs, stopAtBoundary_eq]
  exact raisedFrom_raiseAll _ hw

/-- Settles O19: the stop is one change of the state, whatever made the boundary. -/
theorem boundaryWithStopPending : Obligations.BoundaryWithStopPending := by
  intro c s plans hw he hs hcases
  have notices : swapRaised s ++ stoppedNotice false s :: (endWalk s).2 =
      (if s.plans.swapPending then
        [{ kind := .planSwapped, subject := some plans.active.code, detail := 0, cycle := s.engine.cycle }] else []) ++
      [{ kind := .cycleStopped, subject := none, detail := 0, cycle := s.engine.cycle }] ++
      (if s.walk.pointer.isSome then
        [{ kind := .walkCut, subject := none, detail := s.walk.remaining, cycle := s.walkCycle }] else []) := by
    rw [endWalk_raised, swapRaised_eq, List.append_assoc]
    cases hp : s.plans.swapPending <;> simp [plans, hp] <;> rfl
  obtain ⟨rfl, hm, hn⟩ | ⟨rfl, hm, hf, hn⟩ | ⟨rfl, hm, hf, hn⟩ | ⟨rfl, hm, hp⟩ := hcases
  · exact ⟨_, exec_periodBoundary hw he hm hn, (raisedFrom_stopAtBoundary hw hs _ _).congr (entersStopped_eq atStop_false) notices⟩
  · exact ⟨_, exec_syncDeadline hw he hm hf hn, (raisedFrom_stopAtBoundary hw hs _ _).congr (entersStopped_eq atStop_false) notices⟩
  · exact ⟨_, exec_flywheelBoundary hw he hm hf hn, (raisedFrom_stopAtBoundary hw hs _ _).congr (entersStopped_eq atStop_false) notices⟩
  · exact ⟨_, exec_syncRisingEdge_running hw he hm hp,
      (raisedFrom_stopAtBoundary (s := s.syncHigh) hw hs _ _).congr (entersStopped_eq atStop_false) notices⟩

/-! ### A boundary that begins a cycle -/

/-- The state as a boundary that begins a further cycle hands it on (R33, R121). -/
def State.entersCycle (flywheel : Bool) (s : State) : State :=
  { s with
    chans := stampAtBoundary (s.engine.cycle + 1) s
    engine := Engine.startCycle s.now { s.engine with cycle := s.engine.cycle + 1, flywheel := flywheel } }

/-- The state that a boundary hands on, with the swap performed and the walk of the new cycle begun (R33, R48). -/
def State.handsOn (s : State) : State := beginWalk { s with plans := s.plans.afterSwap }

/-- The Notice Unit has taken the notice of the source of the boundary (R37, R39). -/
def State.raisedBy (source : Option NoticeKind) (s : State) : State :=
  match source with
  | some k => raise { kind := k, subject := none, detail := 0, cycle := s.engine.cycle } s
  | none => s

theorem newCycle_eq (flywheel : Bool) (source : Option NoticeKind) (s : State) :
    newCycle flywheel source s = handOn (((takeRaised s).entersCycle flywheel).raisedBy source) := by
  cases source <;> rfl

/-- What is held beside notices carries over to the state that a boundary hands on. -/
theorem besideNotices_entersCycle {s t : State} (h : t.besideNotices = s.besideNotices) (flywheel : Bool)
    (source : Option NoticeKind) :
    ((t.entersCycle flywheel).raisedBy source).handsOn.besideNotices =
      ((s.entersCycle flywheel).raisedBy source).handsOn.besideNotices := by
  obtain ⟨n, rs, k, x, slot, hs, rfl⟩ := exists_of_besideNotices h
  cases source <;> simp only [State.besideNotices, State.handsOn, State.raisedBy, State.entersCycle, beginWalk, raise, hs] <;> rfl

theorem raisedBy_handsOn_raising (source : Option NoticeKind) (s : State) :
    (s.raisedBy source).handsOn.raising = s.raising := by cases source <;> rfl

/-- A boundary that begins a cycle raises its notices from the state that it hands on (R33, R57). -/
theorem raisedFrom_newCycle {s : State} (hw : s.hwReset = none) (hs : s.engine.stopPending = false) (flywheel : Bool)
    (source : Option NoticeKind) :
    RaisedFrom ((s.entersCycle flywheel).raisedBy source).handsOn (arbitrate (boundary flywheel source s))
      (swapRaised (s.entersCycle flywheel) ++ (endWalk (s.entersCycle flywheel)).2) := by
  rw [boundary, if_neg (Bool.eq_false_iff.1 hs), newCycle_eq, handOn_eq]
  obtain ⟨n, rs, k, x, slot, -, ht⟩ := exists_of_besideNotices (State.besideNotices_takeRaised s)
  have powered : (((takeRaised s).entersCycle flywheel).raisedBy source).handsOn.hwReset = none := by
    rw [ht]
    cases source <;> exact hw
  refine (raisedFrom_raiseAll _ powered).of_eq (besideNotices_entersCycle (State.besideNotices_takeRaised s) flywheel source)
    (fun hr => ?_) ?_
  · rw [raisedBy_handsOn_raising] at hr
    rw [takeRaised_nil (s := s) hr]
  · rw [ht]
    cases source <;> rfl

/-- The engine in the further cycle that a boundary begins (R28, R33). -/
theorem startCycle_eq {e : Engine} (he : e.state = .running) (now : Nat) (cycle : CycleNo) (flywheel : Bool) :
    Engine.startCycle now { e with cycle := cycle, flywheel := flywheel } = { e with
      cycle := cycle, cycleStart := some now, flywheel := flywheel
      nextBoundary := some (match e.mode with
        | .free => now + e.period
        | .sync => now + e.period + if flywheel then 0 else e.period / 8) } := by
  obtain ⟨state, mode⟩ := e
  cases he
  cases mode <;> cases flywheel <;> rfl

/-- The stamps of the debounces begun at the instant of the boundary (R121, log 14). -/
theorem stampAtBoundary_eq {s : State} {start : Nat} (h : s.engine.cycleStart = some start) (cycle : CycleNo) :
    stampAtBoundary cycle s = if start = s.now then s.chans else s.chans.mapRecords fun c => match c with
      | .edge c => .edge { c with debounces := c.debounces.map fun d => d.map fun d =>
          if d.began = s.now then { d with cycle := cycle, offset := 0 } else d }
      | c => c := by
  have hf : Channel.restamp s.now cycle = fun c => match c with
      | .edge c => .edge { c with debounces := c.debounces.map fun d => d.map fun d =>
          if d.began = s.now then { d with cycle := cycle, offset := 0 } else d }
      | c => c := by
    funext c
    cases c <;> rfl
  rw [stampAtBoundary, h, hf]
  simp only [Option.some.injEq]

theorem entersCycle_eq {s : State} {start : Nat} (he : s.engine.state = .running) (h : s.engine.cycleStart = some start)
    (flywheel : Bool) :
    s.entersCycle flywheel = { s with
      chans := if start = s.now then s.chans else s.chans.mapRecords fun c => match c with
        | .edge c => .edge { c with debounces := c.debounces.map fun d => d.map fun d =>
            if d.began = s.now then { d with cycle := s.engine.cycle + 1, offset := 0 } else d }
        | c => c
      engine := { s.engine with
        cycle := s.engine.cycle + 1, cycleStart := some s.now, flywheel := flywheel
        nextBoundary := some (match s.engine.mode with
          | .free => s.now + s.engine.period
          | .sync => s.now + s.engine.period + if flywheel then 0 else s.engine.period / 8) } } := by
  rw [State.entersCycle, stampAtBoundary_eq h, startCycle_eq he]

/-- A walk that follows the active plan has the number of its cycle, also once the boundary has counted on (R46). -/
theorem walkCycle_entersCycle {s : State} (h : walkOnPlan s) (flywheel : Bool) (hp : s.walk.pointer.isSome = true) :
    (s.entersCycle flywheel).walkCycle = s.walkCycle := by
  obtain ⟨p, hp⟩ := Option.isSome_iff_exists.1 hp
  unfold walkOnPlan at h
  rw [hp] at h
  obtain ⟨-, -, hcycle, -⟩ := h
  show s.walk.cycle.getD _ = s.walk.cycle.getD _
  rw [hcycle]
  rfl

/-- The notices of the Plan Store and the Step Walker at a boundary (R18, R57). -/
theorem boundary_notices {s : State} (h : walkOnPlan s) (flywheel : Bool) :
    swapRaised (s.entersCycle flywheel) ++ (endWalk (s.entersCycle flywheel)).2 =
      (if s.plans.swapPending then
        [{ kind := .planSwapped, subject := some s.plans.afterSwap.active.code, detail := 0, cycle := s.engine.cycle + 1 }]
      else []) ++
      (if s.walk.pointer.isSome then
        [{ kind := .walkCut, subject := none, detail := s.walk.remaining, cycle := s.walkCycle }] else []) := by
  rw [endWalk_raised, swapRaised_eq]
  congr 1
  · unfold PlanStore.afterSwap
    cases hp : s.plans.swapPending <;> simp only [State.entersCycle, hp] <;> rfl
  · cases hp : s.walk.pointer.isSome with
    | false => simp [State.entersCycle, hp]
    | true => rw [walkCycle_entersCycle h flywheel hp]; simp [State.entersCycle, hp]

/-- A boundary that begins a cycle, in the words of the manual: the state that it hands on, and the notices of the Plan Store and
the Step Walker behind that of its source (R33, R57). -/
theorem raisedFrom_boundary {s : State} {start : Nat} (hw : s.hwReset = none) (he : s.engine.state = .running)
    (hs : s.engine.stopPending = false) (hwalk : walkOnPlan s) (hstart : s.engine.cycleStart = some start) (flywheel : Bool)
    (source : Option NoticeKind) :
    RaisedFrom
      (State.raisedBy source { s with
        chans := if start = s.now then s.chans else s.chans.mapRecords fun c => match c with
          | .edge c => .edge { c with debounces := c.debounces.map fun d => d.map fun d =>
              if d.began = s.now then { d with cycle := s.engine.cycle + 1, offset := 0 } else d }
          | c => c
        engine := { s.engine with
          cycle := s.engine.cycle + 1, cycleStart := some s.now, flywheel := flywheel
          nextBoundary := some (match s.engine.mode with
            | .free => s.now + s.engine.period
            | .sync => s.now + s.engine.period + if flywheel then 0 else s.engine.period / 8) } }).handsOn
      (arbitrate (boundary flywheel source s))
      ((if s.plans.swapPending then
        [{ kind := .planSwapped, subject := some s.plans.afterSwap.active.code, detail := 0, cycle := s.engine.cycle + 1 }]
      else []) ++
      (if s.walk.pointer.isSome then
        [{ kind := .walkCut, subject := none, detail := s.walk.remaining, cycle := s.walkCycle }] else [])) :=
  (raisedFrom_newCycle hw hs flywheel source).congr (by rw [entersCycle_eq he hstart]) (boundary_notices hwalk flywheel)

/-- Settles O18: the further cycle is one change of the state, whatever made the boundary. -/
theorem boundaryBeginsCycle : Obligations.BoundaryBeginsCycle := by
  intro c flywheel source start s free syncMode cycle plans hw he hs hwalk hstart hcases
  obtain ⟨rfl, ⟨hm, hn, rfl⟩, rfl⟩ | ⟨rfl, hm, hf, hn, rfl, rfl⟩ | ⟨rfl, hm, hf, hn, rfl, rfl⟩ | ⟨rfl, hm, hp, hf, rfl, rfl⟩ |
    ⟨rfl, hm, hp, hf, rfl, rfl⟩ := hcases
  · exact ⟨_, exec_periodBoundary hw he hm hn, raisedFrom_boundary hw he hs hwalk hstart _ _⟩
  · exact ⟨_, exec_syncDeadline hw he hm hf hn, raisedFrom_boundary hw he hs hwalk hstart _ _⟩
  · exact ⟨_, exec_flywheelBoundary hw he hm hf hn, raisedFrom_boundary hw he hs hwalk hstart _ _⟩
  · have hexec := exec_syncRisingEdge_running hw he hm hp
    rw [hf] at hexec
    exact ⟨_, hexec, raisedFrom_boundary (s := s.syncHigh) hw he hs hwalk hstart _ _⟩
  · have hexec := exec_syncRisingEdge_running hw he hm hp
    rw [hf] at hexec
    exact ⟨_, hexec, raisedFrom_boundary (s := s.syncHigh) hw he hs hwalk hstart _ _⟩

end Sys2Proof.Machine
end

section
/-! PROOFS. Resets (chapters 9 and 10): the announcement of a reset, the end of a reply, and the hardware reset. -/

namespace Sys2Proof.Machine

/-! ### Announcing a reset -/

/-- The causes after a reset: STOP_LINE alone, if NSTOP is low (R139). -/
def stopLineCauses (nstop : Level) : CauseSet := { request := false, stopLine := nstop == .low, silence := false }

/-- The entry of the SAFE_ENTERED that STOP_LINE raises as a reset takes effect; its cycle number is 0 (log 28). -/
def safeEnteredEntry : Notice :=
  { kind := .safeEntered, subject := some 2, count := 1, cycle := 0, detail := 0, state := .unsent }

/-- The Notice Unit after a reset: READY, and SAFE_ENTERED behind it if NSTOP is low (R139, R154, R155). -/
def announced (cause : Byte) (nstop : Level) : NoticeUnit :=
  { NoticeUnit.emptied with queue := readyEntry cause :: if nstop = .low then [safeEnteredEntry] else [] }

/-- Announcing a reset to emptied blocks (R139, R154). -/
theorem announceReset_eq {s : State} (cause : Byte) (hn : s.notices = NoticeUnit.emptied) (he : s.engine.cycle = 0)
    (hs : s.safe.safe = false) (hc : s.safe.causes = CauseSet.none) (ho : s.safe.safeOut = .high)
    (ht : s.chans = ChannelTable.afterReset) :
    announceReset cause s = { s with
      notices := announced cause s.safe.nstop
      safe := { s.safe with
        safe := s.safe.nstop == .low
        causes := stopLineCauses s.safe.nstop
        safeOut := if s.safe.nstop = .low then .low else .high } } := by
  obtain ⟨now, hw, plans, engine, walk, chans, ⟨safe, causes, nstop, period, timer, safeOut⟩⟩ := s
  cases hn
  cases hs
  cases hc
  cases ho
  cases ht
  cases nstop with
  | high => rfl
  | low =>
    simp only at he
    simp only [announceReset, applyCause, raise, he]
    rfl

/-- The first notice after a reset is READY, with the number 0 (R144, R147, R154). -/
theorem offer_announced (cause : Byte) (nstop : Level) (now : Nat) :
    (announced cause nstop).offer now = some (noticeFrame (readyEntry cause) 0, { announced cause nstop with
      queue := { readyEntry cause with state := .sent 0 false } :: if nstop = .low then [safeEnteredEntry] else []
      nextNum := 1
      timer := some (now + 100000) }) := by
  cases nstop <;> rfl

/-! ### The soft reset (R180) -/

/-- The state after a soft reset: the link, the pins and the silence period are kept. -/
def State.softRestarted (s : State) : State :=
  { s with
    plans := PlanStore.afterReset
    engine := Engine.afterReset
    walk := Walk.absent
    chans := ChannelTable.afterReset
    disp := Dispatcher.afterReset
    raising := []
    safe :=
      { safe := s.safe.nstop == .low
        causes := stopLineCauses s.safe.nstop
        nstop := s.safe.nstop
        period := s.safe.period
        timer := silenceExpiry s.safe.period s.now
        safeOut := if s.safe.nstop = .low then .low else .high }
    notices := announced 2 s.safe.nstop }

theorem softReset_eq {s : State} (h : s.disp.slot = .empty) : softReset s = s.softRestarted := by
  have hd : ({ s.disp with softReset := false } : Dispatcher) = Dispatcher.afterReset := by rw [Dispatcher.afterReset, ← h]
  rw [softReset, announceReset_eq 2 rfl rfl rfl rfl rfl rfl]
  simp only [clearBlocks, hd]
  rfl

/-! ### The request in the holding buffer -/

theorem serveHeld_none {s : State} (h : s.link.holding = none) : serveHeld s = s := by simp [serveHeld, h]

theorem serveHeld_some {s : State} {f : Frame} (h : s.link.holding = some f) (hs : s.disp.slot = .empty) :
    serveHeld s = serve f (carryOf f.kind) s := by simp [serveHeld, h, hs]

/-- The request in the holding buffer, taken by its own command (R171). -/
theorem exec_held {c : Instr} {f : Frame} {s : State} (hc : requestFrame? c = some f) (hw : s.hwReset = none)
    (hs : s.disp.slot = .empty) (hh : s.link.holding = some f) :
    exec c s = .next (arbitrateAfter (noticeReady s) (serveHeld s)) := by
  have taken : canTake f s = true := by simp [canTake, hw, hs, hh]
  rw [exec_request hc, dispatch, if_pos taken, serveHeld_some hh hs]

/-! ### The end of a reply (R167, R171, R180) -/

/-- The state with the reply sent: the transmitter free and the slot empty. -/
def State.freed (s : State) : State :=
  { s with link := { s.link with tx := none }, disp := { s.disp with slot := .empty } }

theorem frameDue_reply {s : State} {x : TxFrame} (hw : s.hwReset = none) (ht : s.link.tx = some x) (hx : x.source = .reply)
    (he : x.endsAt = s.now) : frameDue .reply s = true := by simp [frameDue, hw, ht, hx, he]

theorem exec_replySent_soft {s : State} (hd : frameDue .reply s = true) (hr : s.disp.softReset = true) :
    exec .replySent s = .next (arbitrate (serveHeld s.freed.softRestarted)) := by
  rw [← softReset_eq (s := s.freed) rfl]
  exact congrArg Host.Outcome.next ((if_pos hd).trans (if_pos hr))

theorem exec_replySent_plain {s : State} (hd : frameDue .reply s = true) (hr : s.disp.softReset = false) :
    exec .replySent s =
      .next (arbitrateAfter (noticeReady (maybeSendBefore s.freed)) (serveHeld (maybeSendBefore s.freed))) :=
  congrArg Host.Outcome.next ((if_pos hd).trans (if_neg (Bool.eq_false_iff.1 hr)))

/-- Asked with nothing new to send, the arbiter chooses as ever. -/
theorem arbitrateAfter_same (s : State) : arbitrateAfter (noticeReady s) s = arbitrate s := by
  unfold arbitrateAfter
  cases noticeReady s <;> rfl

/-- The request that waits for the reply is taken on a state that holds what is left beside notices. -/
theorem exec_held_freed {c : Instr} {f : Frame} {s u : State} (hc : requestFrame? c = some f) (hw : s.hwReset = none)
    (hh : s.link.holding = some f) (hu : u.besideNotices = s.freed.besideNotices) :
    exec c u = .next (arbitrateAfter (noticeReady u) (serveHeld u)) := by
  obtain ⟨n, rs, k, x, slot, hs, rfl⟩ := exists_of_besideNotices hu
  have empty : slot = .empty := by
    cases slot with
    | empty => rfl
    | _ => cases hs
  exact exec_held hc hw empty hh

theorem exec_replySent_held {c : Instr} {f : Frame} {s : State} (hd : frameDue .reply s = true) (hr : s.disp.softReset = false)
    (hw : s.hwReset = none) (hc : requestFrame? c = some f) (hh : s.link.holding = some f) :
    exec .replySent s = exec c (maybeSendNotice s.freed) := by
  have before : maybeSendBefore s.freed = maybeSendNotice s.freed := if_pos (by rw [State.freed, hh]; rfl)
  rw [exec_replySent_plain hd hr, before, exec_held_freed hc hw hh (by simp)]

/-- After a soft reset the reply to the waiting request goes first (R180): READY was ready before it. -/
theorem exec_softRestarted {c : Instr} {f : Frame} {s : State} (hw : s.hwReset = none) (hc : requestFrame? c = some f)
    (hh : s.link.holding = some f) :
    exec c s.freed.softRestarted = .next (arbitrate (serveHeld s.freed.softRestarted)) := by
  have ready : noticeReady s.freed.softRestarted = true := by
    have offered : (s.freed.softRestarted.notices.offer s.freed.softRestarted.now).isSome = true := by
      rw [State.softRestarted, offer_announced]
      rfl
    simp only [noticeReady, offered]
    simp [State.softRestarted, State.freed, hw]
  rw [exec_held hc (s := s.freed.softRestarted) hw rfl hh, ready]
  rfl

/-- With no request waiting, READY is sent after a soft reset (R154, R180). -/
theorem arbitrate_softRestarted {s : State} (hw : s.hwReset = none) :
    arbitrate s.freed.softRestarted = beginFrame .notice (noticeFrame (readyEntry 2) 0) { s.freed.softRestarted with
      notices := { announced 2 s.safe.nstop with
        queue := { readyEntry 2 with state := .sent 0 false } :: if s.safe.nstop = .low then [safeEnteredEntry] else []
        nextNum := 1
        timer := some (s.now + 100000) } } := by
  rw [arbitrate_notice (s := s.freed.softRestarted) hw rfl (fun r h => nomatch h), sendNotice]
  have offered := offer_announced 2 s.safe.nstop s.now
  rw [show s.freed.softRestarted.notices.offer s.freed.softRestarted.now = _ from offered]

/-- Settles O7: the slot empties, a soft reset takes effect, and the held request is taken as by its own command. -/
theorem replySentEmptiesSlotOrResets : Obligations.ReplySentEmptiesSlotOrResets := by
  intro s x hw ht hx he freed safeEntered restarted
  have hd := frameDue_reply hw ht hx he
  refine ⟨fun hh => ⟨fun hr => ?_, fun hr => ?_⟩, fun c f hc hh => ⟨fun hr => ⟨fun hn => ?_, fun _ => ?_⟩, fun hr => ?_⟩⟩
  · have before : maybeSendBefore s.freed = s.freed := if_neg (by rw [State.freed, hh]; decide)
    rw [exec_replySent_plain hd hr, before, serveHeld_none (s := s.freed) hh, arbitrateAfter_same,
      arbitrate_notice (s := s.freed) hw rfl (fun r h => nomatch h)]
    rfl
  · rw [exec_replySent_soft hd hr, serveHeld_none (s := s.freed.softRestarted) hh, arbitrate_softRestarted hw]
    rfl
  · have stays : maybeSendNotice s.freed = freed := if_neg (Bool.eq_false_iff.1 hn)
    rw [exec_replySent_held hd hr hw hc hh, stays]
  · rw [exec_replySent_held hd hr hw hc hh]
    obtain h | ⟨k, h⟩ | ⟨k, h⟩ := maybeSendNotice_cases s.freed
    · exact ⟨s.choices, .inl (by rw [h]; rfl)⟩
    · exact ⟨k, .inr (by rw [h]; rfl)⟩
    · exact ⟨k, .inl (by rw [h]; rfl)⟩
  · rw [exec_replySent_soft hd hr, ← exec_softRestarted hw hc hh]
    rfl

/-! ### The hardware reset (R181) -/

@[simp] theorem records_afterReset (ch : ChanIx) : ChannelTable.afterReset.records.get ch = .free := by
  show (Vector.replicate 16 Channel.free)[ch.val] = .free
  simp

@[simp] theorem lineMap_afterReset (n : Fin 32) : ChannelTable.afterReset.lineMap.get n = none := by
  show (Vector.replicate 32 (none : Option ChanIx))[n.val] = none
  simp

/-- With no line claimed no line is driven (R66, R82). -/
theorem lineDrive_afterReset {s : State} (h : s.chans = ChannelTable.afterReset) (n : Fin 32) : lineDrive s n = none := by
  simp [lineDrive, h]

theorem resetCause_eq (current : Option ResetCause) (cause : ResetCause) :
    resetCause current cause = if current = some .powerOn then .powerOn else cause := by
  cases current with
  | none => rfl
  | some c => cases c <;> rfl

theorem whenPowered_hwReset {s : State} (h : s.hwReset.isSome = true) (k : State) : whenPowered s k = .next s :=
  congrArg Host.Outcome.next (if_pos h)

/-- An event of the part that is not due has no effect (log 1). -/
theorem next_notDue {due : Bool} (h : due = false) (k s : State) : (.next (if due then k else s) : Out) = .next s :=
  congrArg Host.Outcome.next (if_neg (Bool.eq_false_iff.1 h))

/-- During a hardware reset no command has an effect, but for the levels of the field lines and the reset's own (R168, R181). -/
theorem exec_hwReset {s : State} (h : s.hwReset.isSome = true) {c : Instr} (hl : ∀ levels, c ≠ .edgeLineChange levels)
    (hb : ∀ cause, c ≠ .hardwareResetBegin cause) (he : ∀ samples midCharacter, c ≠ .hardwareResetEnd samples midCharacter) :
    exec c s = .next s := by
  have hn : s.hwReset.isNone = false := by rw [Option.isNone_eq_false_iff]; exact h
  cases hf : requestFrame? c with
  | some f => rw [exec_request hf, dispatch_not_taken (by simp [canTake, hn])]
  | none =>
    cases c
    case unknownKind seq kind body =>
      have hk : ¬ unknownKindCode kind = true := by simpa [requestFrame?] using hf
      exact congrArg Host.Outcome.next (if_neg hk)
    case requestFrameReceived => exact whenPowered_hwReset h _
    case ack => exact whenPowered_hwReset h _
    case frameDiscarded => exact whenPowered_hwReset h _
    case lengthByteAbove240 => exact whenPowered_hwReset h _
    case byteTaken => exact whenPowered_hwReset h _
    case framingError => exact whenPowered_hwReset h _
    case syncRisingEdge => exact whenPowered_hwReset h _
    case syncFallingEdge => exact whenPowered_hwReset h _
    case nstopLow => exact whenPowered_hwReset h _
    case nstopHigh => exact whenPowered_hwReset h _
    case gapLimit => exact next_notDue (by simp [gapDue, hn]) _ s
    case replySent => exact next_notDue (by simp [frameDue, hn]) _ s
    case noticeFrameSent => exact next_notDue (by simp [frameDue, hn]) _ s
    case periodBoundary => exact next_notDue (by simp [periodDue, boundaryDue, hn]) _ s
    case syncDeadline => exact next_notDue (by simp [deadlineDue, boundaryDue, hn]) _ s
    case flywheelBoundary => exact next_notDue (by simp [flywheelDue, boundaryDue, hn]) _ s
    case burstOnPhaseEnd => exact next_notDue (by simp [phaseDue, hn]) _ s
    case burstOffPhaseEnd => exact next_notDue (by simp [phaseDue, hn]) _ s
    case debounceConfirmed => exact next_notDue (by simp [debounceDue, hn]) _ s
    case silenceTimerExpiry => exact next_notDue (by simp [silenceDue, hn]) _ s
    case retransmitTimerExpiry => exact next_notDue (by simp [retransmitDue, hn]) _ s
    case stepFire => exact if_pos h
    case edgeLineChange levels => exact absurd rfl (hl levels)
    case hardwareResetBegin cause => exact absurd rfl (hb cause)
    case hardwareResetEnd samples midCharacter => exact absurd rfl (he samples midCharacter)
    all_goals cases hf

/-- The end of a hardware reset announces it from emptied blocks (R139, R154, R181). -/
theorem exec_hardwareResetEnd {s : State} {cause : ResetCause} (h : s.hwReset = some cause) (nstop sync : Level)
    (midCharacter : Bool) :
    exec (.hardwareResetEnd ⟨nstop, sync⟩ midCharacter) s = .next { State.reset with
      link := { HostLink.afterHardwareReset with front := if midCharacter then .leavingOut else .seeking }
      safe := { State.reset.safe with
        safe := nstop == .low
        causes := stopLineCauses nstop
        nstop := nstop
        safeOut := if nstop = .low then .low else .high }
      notices := announced (resetSubject cause) nstop
      pins := { sync := sync, lines := s.pins.lines }
      choices := s.choices
      pending := s.pending } := by
  show execHardwareResetEnd ⟨nstop, sync⟩ midCharacter s = _
  simp only [execHardwareResetEnd, h]
  rw [announceReset_eq _ rfl rfl rfl rfl rfl rfl]
  rfl

/-- Settles O50: the beginning, the end, and what passes between. -/
theorem hardwareResets : Obligations.HardwareResets := by
  refine fun s => ⟨fun cause => ?_, fun cause nstop sync midCharacter h => ?_, fun cause h => ?_, fun nstop sync midCharacter h => ?_⟩
  · exact ⟨_, rfl, congrArg some (resetCause_eq _ _), rfl, lineDrive_afterReset rfl, rfl, rfl, rfl, rfl, rfl, rfl, rfl, rfl, rfl,
      rfl, rfl⟩
  · rw [exec_hardwareResetEnd h]
    cases cause <;> rfl
  · have hs : s.hwReset.isSome = true := by rw [h]; rfl
    exact ⟨fun levels => whenPowered_hwReset (s := { s with pins := { s.pins with lines := levels } }) hs _,
      fun c => exec_hwReset hs⟩
  · show execHardwareResetEnd ⟨nstop, sync⟩ midCharacter s = _
    simp only [execHardwareResetEnd, h]

/-! ### The state after a reset -/

@[simp] theorem chan_reset (ch : ChanIx) : State.reset.chan ch = .free := records_afterReset ch

theorem engineLaw_reset : EngineLaw State.reset := by
  refine ⟨by decide, by decide, by decide, rfl, by decide, by decide, by decide, fun _ => rfl, fun ch h => ?_, fun ch => ?_⟩
  · rw [chan_reset] at h
    cases h
  · rw [chan_reset]
    rfl

theorem channelLaw_reset : ChannelLaw State.reset := by
  have held : placesHeld State.reset = 0 := by simp [placesHeld, Channel.places]
  refine ⟨fun ch => by rw [chan_reset]; rfl, fun ch => by rw [chan_reset]; rfl, fun ch => by rw [chan_reset]; rfl,
    fun n ch => ?_, by rw [held]; rfl⟩
  rw [chan_reset, show State.reset.chans.lineMap.get n = none from lineMap_afterReset n]
  simp [Channel.ownsLine, Channel.run?]

theorem safeLaw_reset : SafeLaw State.reset :=
  ⟨by decide, fun _ => rfl, fun h => absurd rfl h, fun h => nomatch h⟩

theorem noticeLaw_reset : NoticeLaw State.reset := by
  unfold NoticeLaw
  decide

theorem linkLaw_reset : LinkLaw State.reset := ⟨trivial, by decide, by decide, by decide⟩

theorem timeLaw_reset : TimeLaw State.reset := by
  have never : ∀ now, notPast now none := fun _ _ h => nomatch h
  refine ⟨by decide, never _, never _, never _, never _, never _, never _, fun ch => ?_⟩
  rw [chan_reset]
  exact never _

theorem debounceLaw_reset : DebounceLaw State.reset :=
  ⟨fun _ => chan_reset, fun ch => by rw [chan_reset]; rfl⟩

/-- Settles O51: no plan, cycle, channel, cause, request or appointment, and READY alone in the notice queue. -/
theorem resetMeetsLaws : Obligations.ResetMeetsLaws :=
  ⟨planLaw_of_emptied rfl rfl, engineLaw_reset, channelLaw_reset, safeLaw_reset, noticeLaw_reset, linkLaw_reset, timeLaw_reset,
    debounceLaw_reset⟩

end Sys2Proof.Machine
end

section
/-! PROOFS. CYCLE_SET, START and the SYNC samples (chapter 2), and the commands that come without their occasion. -/

namespace Sys2Proof.Machine

/-! ### CYCLE_SET (R26, R30) -/

theorem modeOf_none {n : Nat} (h : 1 < n) : modeOf n = none := by
  rw [modeOf, if_neg (by omega), if_neg (by omega)]

/-- A mode code of at most 1 names a mode. -/
theorem modeOf_byte {mode : Byte} (h : mode.toNat ≤ 1) : modeOf mode.toNat = some (if mode = 0 then .free else .sync) := by
  obtain rfl | rfl := byte_le_one h <;> rfl

/-- The period of a CYCLE_SET body reads back. -/
theorem read32_periodBody {period : Nat} (h : period < 4294967296) (mode : Byte) : read32 (le32 period ++ [mode]) 0 = period :=
  read32_of_le32 h rfl

theorem carryCycleSet_badMode {period : Nat} {mode : Byte} (h : 1 < mode.toNat) (s : State) :
    carryCycleSet (le32 period ++ [mode]) s = answer statusBadValue s := by
  have hm : modeOf (natAt (le32 period ++ [mode]) 4) = none := modeOf_none h
  simp only [carryCycleSet, hm]
  rfl

/-- A CYCLE_SET with a mode code is decided by its period, the engine state and the active chain (R26, R30). -/
theorem carryCycleSet_mode {period : Nat} (hp : period < 4294967296) {mode : Byte} (h : mode.toNat ≤ 1) (s : State) :
    carryCycleSet (le32 period ++ [mode]) s =
      if period < 250 ∨ 1000000 < period then answer statusBadValue s
      else if s.engine.state ≠ .stopped then answer statusState s
      else match slotBeyond period s.plans.activeTable with
        | some p => (s, [0x23, 0x03, ixByte p])
        | none => ({ s with engine := { s.engine with period := period, mode := if mode = 0 then .free else .sync } }, [0x00]) := by
  have hm : modeOf (natAt (le32 period ++ [mode]) 4) = some (if mode = 0 then .free else .sync) := modeOf_byte h
  simp only [carryCycleSet, hm, read32_periodBody hp]
  rfl

/-- Settles O15: the checks in their order. -/
theorem cycleSetOutcomes : Obligations.CycleSetOutcomes := by
  intro seq mode period s hp body h
  refine ⟨fun hbad => exec_answer rfl h ?_, fun hmin hmax hmode => ⟨fun he => exec_answer rfl h ?_, fun he => ⟨fun x hx => ?_,
    fun hbelow => ?_⟩⟩⟩
  · show carryCycleSet (le32 period ++ [mode]) s.taken = _
    by_cases hm : 1 < mode.toNat
    · exact carryCycleSet_badMode hm _
    · rw [carryCycleSet_mode hp (Nat.not_lt.1 hm), if_pos (by omega)]
      rfl
  all_goals
    have carried := carryCycleSet_mode hp hmode s.taken
    rw [if_neg (by omega)] at carried
  · exact carried.trans (if_pos he)
  all_goals
    have stopped : ¬ s.taken.engine.state ≠ .stopped := not_not.2 he
    rw [if_neg stopped] at carried
  · have hslot : slotBeyond period s.taken.plans.activeTable = some x.1 := congrArg (Option.map Prod.fst) hx
    rw [hslot] at carried
    exact exec_answered (u := s) rfl h carried rfl
  · have hslot : slotBeyond period s.taken.plans.activeTable = none := by
      rw [slotBeyond, Option.map_eq_none_iff, List.find?_eq_none]
      exact fun y hy => by simpa using hbelow y hy
    rw [hslot] at carried
    exact exec_answered rfl h carried rfl

/-! ### START (R31) -/

theorem carryStart_refused {s : State} (h : s.engine.state ≠ .stopped) : carryStart [] s = answer statusState s := if_pos h

theorem carryStart_free {s : State} (he : s.engine.state = .stopped) (hm : s.engine.mode = .free) :
    carryStart [] s = (beginWalk { s with engine := Engine.startCycle s.now { s.engine with cycle := 0 } }, [0x00, 0x02]) := by
  simp only [carryStart, withLength, he, hm]
  rfl

theorem carryStart_sync {s : State} (he : s.engine.state = .stopped) (hm : s.engine.mode = .sync) :
    carryStart [] s = ({ s with engine := { s.engine with cycle := 0, state := .armed } }, [0x00, 0x01]) := by
  simp only [carryStart, withLength, he, hm]
  rfl

/-- The engine in a cycle of FREE mode: its next boundary is one period on (R28). -/
theorem startCycle_free {e : Engine} (hm : e.mode = .free) (start : Nat) :
    e.startCycle start = { e with state := .running, cycleStart := some start, nextBoundary := some (start + e.period) } := by
  simp only [Engine.startCycle, Engine.boundaryAfter, hm]

/-- The engine in a cycle of SYNC mode: the next boundary is the deadline, or under flywheel one period on (R28). -/
theorem startCycle_sync {e : Engine} (hm : e.mode = .sync) (start : Nat) :
    e.startCycle start = { e with
      state := .running, cycleStart := some start
      nextBoundary := some (start + e.period + if e.flywheel then 0 else e.period / 8) } := by
  simp only [Engine.startCycle, Engine.boundaryAfter, hm]
  cases e.flywheel <;> rfl

/-- Settles O16: one branch for each mode of a STOPPED engine. -/
theorem startOutcomes : Obligations.StartOutcomes := by
  refine fun seq s h => ⟨fun he => exec_answer rfl h (carryStart_refused he), fun he hm => ?_, fun he hm => ?_⟩
  · refine exec_answered rfl h ((carryStart_free (s := s.taken) he hm).trans ?_) rfl
    rw [startCycle_free (e := { s.taken.engine with cycle := 0 }) hm]
    rfl
  · exact exec_answered rfl h (carryStart_sync (s := s.taken) he hm) rfl

/-! ### The SYNC samples (R32, R35) -/

/-- An edge that the engine does not count: in FREE mode, or STOPPED (R35). -/
theorem risingEdge_uncounted {s : State} (h : s.engine.mode = .free ∨ s.engine.state = .stopped) : risingEdge s = s := by
  unfold risingEdge
  split
  · next hm he => simp [hm, he] at h
  · next hm he => simp [hm, he] at h
  · rfl

theorem risingEdge_armed {s : State} (hm : s.engine.mode = .sync) (he : s.engine.state = .armed) : risingEdge s = firstCycle s := by
  rw [risingEdge, hm, he]

/-- The first cycle raises the notice of a pending swap alone when no walk is under way (R32, R33). -/
theorem raisedFrom_firstCycle {s : State} (hw : s.hwReset = none) (hp : s.walk.pointer = none) :
    RaisedFrom (State.handsOn { s with engine := s.engine.startCycle s.now }) (arbitrate (firstCycle s)) (swapRaised s) := by
  have uncut : (endWalk { s with engine := s.engine.startCycle s.now }).2 = [] := by simp [endWalk, hp]
  rw [firstCycle, handOn_eq, uncut, List.append_nil]
  exact raisedFrom_raiseAll _ hw

/-- Settles O20: the edge that counts begins cycle 0, and any other sample moves the sampled level at most. -/
theorem syncSamples : Obligations.SyncSamples := by
  intro s hw plans
  refine ⟨fun hp hm he hpointer => ?_, fun hp hc => ?_, fun hp => ?_, ?_⟩
  · refine ⟨_, exec_syncRisingEdge_low hw hp, ?_⟩
    rw [risingEdge_armed (s := s.syncHigh) hm he]
    refine (raisedFrom_firstCycle (s := s.syncHigh) hw hpointer).congr ?_ ?_
    · rw [startCycle_sync (e := s.syncHigh.engine) hm]
      rfl
    · rw [swapRaised_eq]
      cases hs : s.plans.swapPending <;> simp only [State.syncHigh, plans, hs] <;> rfl
  · rw [exec_syncRisingEdge_low hw hp, risingEdge_uncounted (s := s.syncHigh) hc]
    rfl
  · have powered : ¬ s.hwReset.isSome = true := by simp [hw]
    exact congrArg Host.Outcome.next ((if_neg powered).trans (if_pos hp))
  · have powered : ¬ s.hwReset.isSome = true := by simp [hw]
    exact congrArg Host.Outcome.next (if_neg powered)

/-! ### Commands without their occasion (logs 1 and 6) -/

/-- STEP_FIRE with no step due has no effect, where the walk pointer meets no empty slot. -/
theorem exec_stepFire_notDue {s : State} (h : stepDue s = false) (hp : ∀ p, stepAtPointer s ≠ some (p, none)) :
    exec .stepFire s = .next s := by
  show execStepFire s = _
  unfold execStepFire
  split
  · rfl
  · next hw =>
    split
    · rfl
    · next p hs => exact absurd hs (hp p)
    · next p st t hs =>
      have ht : t ≠ s.now := by
        rintro rfl
        simp [stepDue, hs, hw] at h
      exact if_neg ht

/-- Settles O21: the Dispatcher refuses to take the request, and each event tests its own condition. -/
theorem commandWithoutOccasion : Obligations.CommandWithoutOccasion := by
  intro c s h
  obtain ⟨f, hf, h⟩ | ⟨rfl, h⟩ | ⟨rfl, h⟩ | ⟨rfl, h⟩ | ⟨rfl, h, hp⟩ | ⟨ch, rfl, h⟩ | ⟨ch, rfl, h⟩ | ⟨ch, rfl, h⟩ | ⟨rfl, h⟩ |
    ⟨rfl, h⟩ | ⟨rfl, h⟩ | ⟨rfl, h⟩ | ⟨rfl, h⟩ := h
  · rw [exec_request hf, dispatch_not_taken h]
  case inr.inr.inr.inr.inl => exact exec_stepFire_notDue h hp
  all_goals exact next_notDue h _ s

end Sys2Proof.Machine
end

section
/-! PROOFS. The step on an empty queue (log 2): the events that are due, and what time does with none. -/

namespace Sys2Proof.Machine

/-! ### The events that are due -/

theorem mem_dueIf {b : Bool} {c i : Instr} : c ∈ dueIf b i ↔ c = i ∧ b = true := by
  cases b <;> simp [dueIf]

theorem mem_map_filter_chans {p : ChanIx → Bool} {i : ChanIx → Instr} {c : Instr} :
    c ∈ (allChans.filter p).map i ↔ ∃ ch, c = i ch ∧ p ch = true := by
  simp only [List.mem_map, List.mem_filter, allChans, List.mem_finRange, true_and]
  exact exists_congr fun ch => ⟨fun ⟨hp, hc⟩ => ⟨hc.symm, hp⟩, fun ⟨hc, hp⟩ => ⟨hp, hc.symm⟩⟩

/-- An event of the part is due when its own condition holds. -/
theorem mem_dueEvents {c : Instr} {s : State} :
    c ∈ dueEvents s ↔
      (c = .periodBoundary ∧ periodDue s = true) ∨ (c = .syncDeadline ∧ deadlineDue s = true) ∨
      (c = .flywheelBoundary ∧ flywheelDue s = true) ∨ (c = .stepFire ∧ stepDue s = true) ∨
      (∃ ch, c = .burstOnPhaseEnd ch ∧ phaseDue .on ch s = true) ∨ (∃ ch, c = .burstOffPhaseEnd ch ∧ phaseDue .off ch s = true) ∨
      (∃ ch, c = .debounceConfirmed ch ∧ debounceDue ch s = true) ∨
      (c = .silenceTimerExpiry ∧ silenceDue s = true) ∨ (c = .retransmitTimerExpiry ∧ retransmitDue s = true) ∨
      (c = .gapLimit ∧ gapDue s = true) ∨ (c = .replySent ∧ frameDue .reply s = true) ∨
      (c = .noticeFrameSent ∧ frameDue .notice s = true) := by
  simp only [dueEvents, List.mem_append, mem_dueIf, mem_map_filter_chans]
  refine Iff.of_eq ?_
  ac_rfl

/-- During a hardware reset no event is due (R181). -/
theorem dueEvents_hwReset {s : State} (h : s.hwReset.isSome = true) : dueEvents s = [] := by
  have hn : s.hwReset.isNone = false := by rw [Option.isNone_eq_false_iff]; exact h
  refine List.eq_nil_iff_forall_not_mem.2 fun c hc => ?_
  rw [mem_dueEvents] at hc
  simp [periodDue, deadlineDue, flywheelDue, boundaryDue, stepDue, phaseDue, debounceDue, silenceDue, retransmitDue, gapDue,
    frameDue, hn] at hc

/-! ### The step -/

/-- With an event due the step takes one of those that are. -/
theorem step_due {s : State} (hp : s.pending = []) (hd : dueEvents s ≠ []) :
    ∃ c k, c ∈ dueEvents s ∧ step s = exec c { s with choices := k } := by
  have hlt := choose_lt (List.length_pos_iff.2 hd) s
  obtain ⟨k, hk⟩ := choose_state (dueEvents s).length s
  have hnext : nextEvent s = some ((dueEvents s)[(choose (dueEvents s).length s).1], { s with choices := k }) := by
    simp only [nextEvent, List.getElem?_eq_getElem hlt, hk, Option.map_some]
  exact ⟨_, k, List.getElem_mem hlt, by simp only [step, hp, hnext]⟩

/-- With none due the step is the idle one. -/
theorem step_idle {s : State} (hp : s.pending = []) (hd : dueEvents s = []) : step s = .next (idle s) := by
  have hnext : nextEvent s = none := by simp [nextEvent, hd]
  simp only [step, hp, hnext]

theorem idle_hwReset {s : State} (h : s.hwReset.isSome = true) : idle s = s := if_pos h

theorem idle_raising {s : State} (hw : s.hwReset = none) (hr : s.raising ≠ []) : idle s = takeRaised s := by
  simp [idle, hw, hr]

theorem idle_frame {s : State} (hw : s.hwReset = none) (hr : s.raising = []) (hf : frameReady s = true) :
    idle s = arbitrate s := by
  simp [idle, hw, hr, hf]

theorem idle_count {s : State} (hw : s.hwReset = none) (hr : s.raising = []) (hf : frameReady s = false) :
    idle s = { s with now := s.now + 1 } := by
  simp [idle, hw, hr, hf]

/-! ### The frame that a free transmitter takes (R166) -/

theorem frameReady_busy {s : State} (h : s.link.tx.isSome = true) : frameReady s = false := by
  simp [frameReady, Option.isNone_eq_false_iff.2 h]

theorem frameReady_reply {s : State} {r : Frame} (ht : s.link.tx = none) (hs : s.disp.slot = .waiting r) :
    frameReady s = true := by
  simp [frameReady, ht, hs]

/-- Without a waiting reply it is what the Notice Unit offers. -/
theorem frameReady_notice {s : State} (ht : s.link.tx = none) (hs : ∀ r, s.disp.slot ≠ .waiting r) :
    frameReady s = (s.notices.offer s.now).isSome := by
  unfold frameReady
  rw [ht]
  cases h : s.disp.slot with
  | waiting r => exact absurd h (hs r)
  | empty => rfl
  | inTransmission r => rfl

theorem sendNotice_offer {s : State} {f : Frame} {n : NoticeUnit} (h : s.notices.offer s.now = some (f, n)) :
    sendNotice s = beginFrame .notice f { s with notices := n } := by
  simp only [sendNotice, h]

/-- Settles O2: a due event, or else the first of the idle step's cases. -/
theorem emptyQueueCountsTime : Obligations.EmptyQueueCountsTime := by
  intro s hp due
  refine ⟨fun hw => ?_, fun ⟨c, hc⟩ => ?_, fun hw hnone => ?_⟩
  · rw [step_idle hp (dueEvents_hwReset hw), idle_hwReset hw]
  · obtain ⟨c, k, hc, hstep⟩ := step_due hp (List.ne_nil_of_mem (mem_dueEvents.2 hc))
    exact ⟨c, k, mem_dueEvents.1 hc, hstep⟩
  · have hd : dueEvents s = [] := List.eq_nil_iff_forall_not_mem.2 fun c hc => hnone c (mem_dueEvents.1 hc)
    rw [step_idle hp hd]
    refine ⟨fun hr => ?_, fun hr => ⟨fun ht => ⟨fun r hs => ?_, fun f n hs ho => ?_⟩, fun h => ?_⟩⟩
    · obtain ⟨hempty, horder⟩ := takeRaisedUpTo_taken _ s rfl
      rw [idle_raising hw hr]
      exact ⟨_, rfl, State.besideNotices_takeRaised s, hempty, horder⟩
    · rw [idle_frame hw hr (frameReady_reply ht hs), arbitrate_reply hw ht hs]
      rfl
    · have ready : frameReady s = true := by rw [frameReady_notice ht hs, ho]; rfl
      rw [idle_frame hw hr ready, arbitrate_notice hw ht hs, sendNotice_offer ho]
      rfl
    · have quiet : frameReady s = false := by
        cases ht : s.link.tx with
        | some x => exact frameReady_busy (by rw [ht]; rfl)
        | none =>
          obtain ⟨hs, ho⟩ := h.resolve_left (by simp [ht])
          rw [frameReady_notice ht hs, ho]
          rfl
      rw [idle_count hw hr quiet]

end Sys2Proof.Machine
end

section
/-! PROOFS. The appointments of the Notice Unit and the Host Link: whatever these blocks do, none of their timers, frame ends and gap
limits is overdue (R147, R161, R165), and the other blocks stay as they are. -/

namespace Sys2Proof.Machine

/-! ### Appointments -/

theorem notPast_none (now : Nat) : notPast now none := fun _ h => nomatch h

theorem notPast_some {now t : Nat} (h : now ≤ t) : notPast now (some t) := by
  rintro _ ⟨⟩
  exact h

/-- The retransmit timer, the end of the frame on TXD and the gap limit are not overdue. -/
def LinkOnTime (s : State) : Prop :=
  notPast s.now s.notices.timer ∧ notPast s.now (s.link.tx.map TxFrame.endsAt) ∧ notPast s.now s.link.rx.gapEnd

/-- A change within the Notice Unit, the Host Link, the Dispatcher and the model's own fields that leaves no appointment overdue. -/
def LinkMoves (s t : State) : Prop := t.blocks = s.blocks ∧ (LinkOnTime s → LinkOnTime t)

theorem LinkMoves.refl (s : State) : LinkMoves s s := ⟨rfl, id⟩

theorem LinkMoves.trans {s t u : State} (h : LinkMoves s t) (g : LinkMoves t u) : LinkMoves s u :=
  ⟨g.1.trans h.1, fun hs => g.2 (h.2 hs)⟩

/-! ### The Notice Unit -/

@[simp] theorem NoticeUnit.drop_timer (cycle : CycleNo) (n : NoticeUnit) : (n.drop cycle).timer = n.timer := by
  unfold NoticeUnit.drop
  split
  · rfl
  · split <;> rfl

@[simp] theorem NoticeUnit.take_timer (r : Raised) (n : NoticeUnit) : (n.take r).timer = n.timer := by
  unfold NoticeUnit.take
  split
  · rfl
  · split
    · rfl
    · exact n.drop_timer r.cycle

/-- A sent notice restarts the retransmit timer or leaves it running (R147). -/
theorem NoticeUnit.offer_timer {now : Nat} {n m : NoticeUnit} {f : Frame} (h : n.offer now = some (f, m)) :
    m.timer = some (now + Config.retransmitTime) ∨ m.timer = n.timer := by
  unfold NoticeUnit.offer at h
  split at h
  · cases h
    exact .inl rfl
  · split at h
    · obtain ⟨x, -, hx⟩ := Option.map_eq_some_iff.1 h
      cases hx
      dsimp only
      split
      · exact .inl rfl
      · exact .inr rfl
    · cases h

/-- An ACK stops the retransmit timer, restarts it, or leaves it as it is (R147, R149). -/
theorem NoticeUnit.ack_timer (now : Nat) (num : Byte) (n : NoticeUnit) :
    (n.ack now num).timer = n.timer ∨ (n.ack now num).timer = none ∨
      (n.ack now num).timer = some (now + Config.retransmitTime) := by
  have renewed : ∀ removed (m : NoticeUnit), (NoticeUnit.renewOverflow removed m).timer = m.timer := by
    intro removed m
    unfold NoticeUnit.renewOverflow
    split <;> rfl
  unfold NoticeUnit.ack
  split
  · exact .inl rfl
  · rw [renewed]
    dsimp only
    split
    · exact .inr (.inl rfl)
    · exact .inr (.inr rfl)

/-! ### The transmitter -/

theorem linkMoves_choices (s : State) (k : Nat) : LinkMoves s { s with choices := k } := ⟨rfl, id⟩

theorem linkMoves_choose (n : Nat) (s : State) : LinkMoves s (choose n s).2 := by
  obtain ⟨k, hk⟩ := choose_state n s
  rw [hk]
  exact linkMoves_choices s k

theorem linkMoves_raise (r : Raised) (s : State) : LinkMoves s (raise r s) := by
  refine ⟨rfl, fun ⟨ht, hx, hr⟩ => ⟨?_, hx, hr⟩⟩
  rw [raise_notices, NoticeUnit.take_timer]
  exact ht

theorem linkMoves_beginFrame (src : TxSource) (f : Frame) (s : State) : LinkMoves s (beginFrame src f s) :=
  ⟨rfl, fun ⟨ht, _, hr⟩ => ⟨ht, notPast_some (Nat.le_add_right _ _), hr⟩⟩

theorem linkMoves_sendNotice (s : State) : LinkMoves s (sendNotice s) := by
  obtain ⟨-, h⟩ | ⟨f, n, ho, h⟩ := sendNotice_cases s <;> rw [h]
  · exact .refl s
  · have taken : LinkMoves s { s with notices := n } := by
      refine ⟨rfl, fun ⟨ht, hx, hr⟩ => ⟨?_, hx, hr⟩⟩
      obtain hn | hn := NoticeUnit.offer_timer ho
      · rw [show ({ s with notices := n } : State).notices.timer = _ from hn]
        exact notPast_some (Nat.le_add_right _ _)
      · rw [show ({ s with notices := n } : State).notices.timer = _ from hn]
        exact ht
    exact taken.trans (linkMoves_beginFrame _ _ _)

theorem linkMoves_arbitrate (s : State) : LinkMoves s (arbitrate s) := by
  unfold arbitrate
  split
  · exact .refl s
  · split
    · next r _ =>
      exact LinkMoves.trans (t := { s with disp := { s.disp with slot := .inTransmission r } }) ⟨rfl, id⟩
        (linkMoves_beginFrame _ _ _)
    · exact linkMoves_sendNotice s

theorem linkMoves_arbitrateAfter (b : Bool) (s : State) : LinkMoves s (arbitrateAfter b s) := by
  unfold arbitrateAfter
  split
  · dsimp only
    split
    · exact (linkMoves_choose 2 s).trans (linkMoves_sendNotice _)
    · exact (linkMoves_choose 2 s).trans (linkMoves_arbitrate _)
  · exact linkMoves_arbitrate s

theorem linkMoves_maybeSendNotice (s : State) : LinkMoves s (maybeSendNotice s) := by
  obtain h | ⟨k, h⟩ | ⟨k, h⟩ := maybeSendNotice_cases s <;> rw [h]
  · exact .refl s
  · exact (linkMoves_choices s k).trans (linkMoves_sendNotice _)
  · exact linkMoves_choices s k

theorem linkMoves_takeRaisedUpTo (k : Nat) (s : State) : LinkMoves s (takeRaisedUpTo k s) := by
  induction k generalizing s with
  | zero => exact .refl s
  | succ k ih =>
    by_cases h : s.raising = []
    · simpa [takeRaisedUpTo, h, firstOfEachSource] using linkMoves_choose 0 s
    · obtain ⟨r, -, c, e⟩ := takeRaisedUpTo_succ k s h
      have raised : LinkMoves s (raise r { s with choices := c, raising := s.raising.erase r }) :=
        LinkMoves.trans (t := { s with choices := c, raising := s.raising.erase r }) ⟨rfl, id⟩ (linkMoves_raise r _)
      rw [e]
      refine raised.trans (LinkMoves.trans ?_ (ih _))
      dsimp only
      split
      · exact .refl _
      · exact linkMoves_maybeSendNotice _

theorem linkMoves_takeRaised (s : State) : LinkMoves s (takeRaised s) := linkMoves_takeRaisedUpTo _ s

theorem linkMoves_raiseAll (rs : List Raised) (s : State) : LinkMoves s (raiseAll rs s) :=
  LinkMoves.trans (t := { s with raising := s.raising ++ rs }) ⟨rfl, id⟩ (linkMoves_takeRaised _)

theorem linkMoves_freeTransmitter (s : State) : LinkMoves s (freeTransmitter s) :=
  ⟨rfl, fun ⟨ht, _, hr⟩ => ⟨ht, notPast_none _, hr⟩⟩

theorem linkMoves_maybeSendBefore (s : State) : LinkMoves s (maybeSendBefore s) := by
  unfold maybeSendBefore
  split
  · exact linkMoves_maybeSendNotice s
  · exact .refl s

theorem linkMoves_settleFirings (s : State) : LinkMoves s (settleFirings s) := by
  unfold settleFirings
  split
  · exact .refl s
  · exact (linkMoves_takeRaised s).trans (linkMoves_arbitrate _)

/-- The reply to a QUEUE_PUT of the instant changes on TXD, and ends when it did. -/
theorem linkMoves_reportFill (ch : ChanIx) (n : Nat) (s : State) : LinkMoves s (reportFill ch n s) := by
  refine ⟨blocks_reportFill ch n s, fun ⟨ht, hx, hr⟩ => ?_⟩
  unfold reportFill
  split
  · refine ⟨ht, ?_, hr⟩
    dsimp only
    split
    · rw [Option.map_map]
      exact hx
    · exact hx
  · exact ⟨ht, hx, hr⟩

/-! ### The receiver and the Notice Unit's other timers -/

theorem linkMoves_setRx {r : Receiver} {s : State} (h : notPast s.now r.gapEnd) : LinkMoves s (setRx r s) :=
  ⟨rfl, fun ⟨ht, hx, _⟩ => ⟨ht, hx, h⟩⟩

theorem linkMoves_hunt (s : State) : LinkMoves s (setRx .hunt s) := linkMoves_setRx (notPast_none _)

/-- The receiver that has taken a character waits for the next one, or hunts (R159, R161). -/
theorem gapEnd_take (now : Nat) (b : Byte) (r : Receiver) : notPast now (r.take now b).1.gapEnd := by
  have waits : ∀ part, notPast now (Receiver.within now part).gapEnd := fun _ => notPast_some (Nat.le_add_right _ _)
  unfold Receiver.take
  split
  · split
    · exact waits _
    · exact notPast_none _
  · split
    · exact notPast_none _
    · exact waits _
  · exact waits _
  · exact waits _
  · exact waits _
  · exact waits _
  · exact notPast_none _

theorem linkMoves_linkError (s : State) : LinkMoves s (linkError s) := by
  unfold linkError
  dsimp only
  split
  · split
    · exact linkMoves_choose 2 s
    · exact (linkMoves_choose 2 s).trans ⟨rfl, id⟩
  · exact ⟨rfl, id⟩

theorem linkMoves_abandon (s : State) : LinkMoves s (abandon s) := (linkMoves_hunt s).trans (linkMoves_linkError _)

theorem linkMoves_takeAck (body : List Byte) (s : State) : LinkMoves s (takeAck body s) := by
  refine ⟨blocks_takeAck body s, fun ⟨ht, hx, hr⟩ => ?_⟩
  unfold takeAck
  split
  · next num =>
    refine ⟨?_, hx, hr⟩
    show notPast s.now (s.notices.ack s.now num).timer
    obtain h | h | h := s.notices.ack_timer s.now num <;> rw [h]
    · exact ht
    · exact notPast_none _
    · exact notPast_some (Nat.le_add_right _ _)
  · exact ⟨ht, hx, hr⟩

/-- The retransmit timer stops and the SENT entries become due (R148). -/
theorem linkMoves_resendDue (s : State) (q : List Notice) :
    LinkMoves s { s with notices := { s.notices with timer := none, queue := q } } :=
  ⟨rfl, fun ⟨_, hx, hr⟩ => ⟨notPast_none _, hx, hr⟩⟩

end Sys2Proof.Machine
end

section
/-! PROOFS. What one request and one event of the part do to the blocks, each said once; and the principle that a predicate kept by
these, by the moves of the link and by the count of the time base is kept by every step. -/

namespace Sys2Proof.Machine

/-! ### Requests -/

/-- What a request makes of the record of the channel it names (R79, R80, R86, R122, R124). -/
inductive ChannelRequest (s : State) (ch : ChanIx) : Channel → Prop
  | clears : ChannelRequest s ch (s.chan ch).clearCount
  | flushes : ChannelRequest s ch (s.chan ch).flushed
  | resets {c : EdgeChan} (select : EdgeSelect) {debounce : Nat} (hc : s.chan ch = .edge c) (hd : debounce ≤ 255) :
    ChannelRequest s ch (.edge (c.reset s.now select debounce s.pins.lines))
  | putsLevels {c : LevelChan} (rs : List Byte) (hc : s.chan ch = .level c) :
    ChannelRequest s ch (.level { c with
      queue := c.queue ++ (rs.take (min rs.length (c.cfg.depth - c.queue.length))).map (maskTo c.cfg.run.width) })
  | putsBursts {c : BurstChan} {body : List Byte} {n : Nat} {rs : List BurstRec} (hc : s.chan ch = .burst c)
    (hr : burstsAt c.cfg.run.width body n 1 = some rs) :
    ChannelRequest s ch (.burst { c with queue := c.queue ++ rs.take (min n (c.cfg.depth - c.queue.length)) })
  | takesSamples {c : SampleChan} (n : Nat) (hc : s.chan ch = .sample c) :
    ChannelRequest s ch (.sample { c with queue := c.queue.drop n })
  | takesEdges {c : EdgeChan} (n : Nat) (hc : s.chan ch = .edge c) :
    ChannelRequest s ch (.edge { c with queue := c.queue.drop n })

/-- What a request makes of the state, apart from moves of the link: nothing, or one of the effects of chapters 1 to 7. -/
inductive RequestEffect (s : State) : State → Prop
  | nothing : RequestEffect s s
  /-- CYCLE_SET (R30). -/
  | settings {period : Nat} (mode : Mode) (he : s.engine.state = .stopped) (hmin : Config.periodMin ≤ period)
    (hmax : period ≤ Config.periodMax) (hslots : slotBeyond period s.plans.activeTable = none) :
    RequestEffect s { s with engine := { s.engine with period := period, mode := mode } }
  /-- START in FREE mode (R31). -/
  | starts (he : s.engine.state = .stopped) (hm : s.engine.mode = .free) :
    RequestEffect s (beginWalk { s with engine := Engine.startCycle s.now { s.engine with cycle := 0 } })
  /-- START in SYNC mode (R31). -/
  | arms (he : s.engine.state = .stopped) (hm : s.engine.mode = .sync) :
    RequestEffect s { s with engine := { s.engine with cycle := 0, state := .armed } }
  /-- STOP AT_BOUNDARY (R41). -/
  | stopPends (he : s.engine.state = .running) :
    RequestEffect s { s with engine := { s.engine with stopPending := true } }
  /-- STOP NOW, and STOP in ARMED (R41, R43). -/
  | stops (now : Bool) (he : s.engine.state ≠ .stopped) : RequestEffect s (s.entersStopped now)
  /-- An edit of the standby plan (R5). -/
  | edits (t : PlanTable) (hp : s.plans.swapPending = false) :
    RequestEffect s { s with plans := s.plans.setStandby t }
  /-- PLAN_COMMIT in STOPPED (R16). -/
  | swaps {n : Nat} (hp : s.plans.swapPending = false) (he : s.engine.state = .stopped)
    (hv : validate s.plans.standby s.engine.period s.chans.records = .ok n) : RequestEffect s { s with plans := s.plans.swapped }
  /-- PLAN_COMMIT in ARMED and RUNNING (R17). -/
  | swapPends {n : Nat} (hp : s.plans.swapPending = false) (he : s.engine.state ≠ .stopped)
    (hv : validate s.plans.standby s.engine.period s.chans.records = .ok n) :
    RequestEffect s { s with plans := { s.plans with swapPending := true } }
  /-- COMMIT_CANCEL (R20). -/
  | cancels : RequestEffect s { s with plans := { s.plans with swapPending := false } }
  /-- CHAN_SET (R70 to R73). -/
  | installs {ch : ChanIx} {body : List Byte} {setup : Setup} (hset : setupOf body = some setup)
    (hr : s.plans.referenced ch = false) (hl : takenLine ch setup.run s.chans.lineMap = none)
    (hd : setup.depth ≤ s.chans.freeCount + (s.chan ch).places) :
    RequestEffect s { s with chans := s.chans.replace ch (setup.install s.safe.safe s.pins.lines) }
  /-- CHAN_RELEASE (R76). -/
  | releases {ch : ChanIx} (hc : s.chan ch ≠ .free) (hr : s.plans.referenced ch = false) :
    RequestEffect s { s with chans := s.chans.replace ch .free }
  /-- A request to one channel. -/
  | changes {ch : ChanIx} {c : Channel} (hc : ChannelRequest s ch c) : RequestEffect s (s.setChan ch c)
  /-- SAFE (R132). -/
  | causes : RequestEffect s (applyCause .request s)
  /-- RESUME (R136). -/
  | resumes (hn : s.safe.nstop ≠ .low) :
    RequestEffect s { s with safe := { s.safe with safe := false, causes := CauseSet.none, safeOut := .high } }
  /-- SILENCE_SET (R135). -/
  | setsSilence {ms : Nat} (hms : silencePeriodOk ms = true) :
    RequestEffect s (restartSilence { s with safe := { s.safe with period := ms } })

/-- Every answer of a carrying out is an effect of a request, followed by moves of the link. -/
def Carry.HasEffect (carry : Carry) : Prop :=
  ∀ (body : List Byte) (s : State), ∃ u, RequestEffect s u ∧ LinkMoves u (carry body s).1

/-- A state that a request leaves by one of its effects alone. -/
theorem RequestEffect.alone {s t : State} (h : RequestEffect s t) : ∃ u, RequestEffect s u ∧ LinkMoves u t := ⟨t, h, .refl t⟩

theorem noEffect (s : State) : ∃ u, RequestEffect s u ∧ LinkMoves u s := RequestEffect.nothing.alone

theorem withLength_effect {n : Nat} {body : List Byte} {s : State} {k : State × List Byte}
    (hk : ∃ u, RequestEffect s u ∧ LinkMoves u k.1) : ∃ u, RequestEffect s u ∧ LinkMoves u (withLength n body s k).1 := by
  unfold withLength
  split
  · exact hk
  · exact noEffect s

theorem carryIdentify_effect : carryIdentify.HasEffect := fun _ s => withLength_effect (noEffect s)

theorem carryStatus_effect : carryStatus.HasEffect := fun body s => withLength_effect <| by
  cases flagAt body 0 with
  | none => exact noEffect s
  | some clear =>
    cases clear
    · exact noEffect s
    · exact ⟨s, .nothing, rfl, id⟩

theorem carryReset_effect : carryReset.HasEffect := fun _ s => withLength_effect ⟨s, .nothing, rfl, id⟩

theorem carryUnknown_effect : carryUnknown.HasEffect := fun _ s => noEffect s

theorem carryCycleSet_effect : carryCycleSet.HasEffect := fun body s => withLength_effect <| by
  cases modeOf (natAt body 4) with
  | none => exact noEffect s
  | some mode =>
    dsimp only
    split
    · exact noEffect s
    · next hrange =>
      split
      · exact noEffect s
      · next he =>
        split
        · exact noEffect s
        · next hslots => exact (RequestEffect.settings mode (not_not.1 he) (by omega) (by omega) hslots).alone

theorem carryStart_effect : carryStart.HasEffect := fun body s => withLength_effect <| by
  split
  · exact noEffect s
  · next he =>
    dsimp only
    split
    · next hm => exact (RequestEffect.starts (not_not.1 he) hm).alone
    · next hm => exact (RequestEffect.arms (not_not.1 he) hm).alone

/-- Entry into STOPPED is one effect, and its notices are raised after it. -/
theorem enterStopped_effect {s : State} (he : s.engine.state ≠ .stopped) (now : Bool) (cut : List Raised) :
    ∃ u, RequestEffect s u ∧ LinkMoves u (enterStopped now cut s) := by
  rw [enterStopped_eq]
  exact ⟨_, .stops now he, linkMoves_raiseAll _ _⟩

theorem stopEngine_effect (now : Bool) (s : State) : ∃ u, RequestEffect s u ∧ LinkMoves u (stopEngine now s) := by
  unfold stopEngine
  split
  · exact noEffect s
  · next he => exact enterStopped_effect (by simp [he]) _ _
  · next he =>
    split
    · exact enterStopped_effect (by simp [he]) _ _
    · exact (RequestEffect.stopPends he).alone

theorem carryStop_effect : carryStop.HasEffect := fun body s => withLength_effect <| by
  cases flagAt body 0 with
  | none => exact noEffect s
  | some now => exact stopEngine_effect now s

theorem editStandby_effect (edit : PlanTable → PlanTable) (s : State) :
    ∃ u, RequestEffect s u ∧ LinkMoves u (editStandby edit s).1 := by
  unfold editStandby
  dsimp only
  split
  · exact noEffect s
  · next hp => exact (RequestEffect.edits _ (Bool.eq_false_iff.2 hp)).alone

theorem carryStepPut_effect : carryStepPut.HasEffect := fun body s => withLength_effect <| by
  cases parseStep body with
  | none => exact noEffect s
  | some x => exact editStandby_effect _ s

theorem carryStepDrop_effect : carryStepDrop.HasEffect := fun body s => withLength_effect <| by
  cases slotAt body 0 with
  | none => exact noEffect s
  | some p => exact editStandby_effect _ s

theorem carryPlanHead_effect : carryPlanHead.HasEffect := fun body s => withLength_effect <| by
  cases slotOrNoneAt body 0 with
  | none => exact noEffect s
  | some p => exact editStandby_effect _ s

theorem carryPlanClear_effect : carryPlanClear.HasEffect := fun _ s => withLength_effect (editStandby_effect _ s)

theorem carryPlanCopy_effect : carryPlanCopy.HasEffect := fun _ s => withLength_effect (editStandby_effect _ s)

theorem carryPlanRead_effect : carryPlanRead.HasEffect := fun body s => withLength_effect <| by
  split <;> exact noEffect s

theorem carryPlanCommit_effect : carryPlanCommit.HasEffect := fun body s => withLength_effect <| by
  split
  · exact noEffect s
  · next hp =>
    have notPending := Bool.eq_false_iff.2 hp
    split
    · exact noEffect s
    · next n hv =>
      dsimp only
      split
      · next he => exact ⟨_, .swaps notPending he hv, linkMoves_raiseAll _ _⟩
      · next he => exact (RequestEffect.swapPends notPending he hv).alone

theorem carryCommitCancel_effect : carryCommitCancel.HasEffect := fun body s => withLength_effect <| by
  split
  · exact RequestEffect.cancels.alone
  · exact noEffect s

theorem carryChanSet_effect : carryChanSet.HasEffect := fun body s => withLength_effect <| by
  split
  · next ch setup _ hset =>
    split
    · exact noEffect s
    · next hr =>
      split
      · exact noEffect s
      · next hl =>
        dsimp only
        split
        · exact noEffect s
        · next hd => exact (RequestEffect.installs hset (Bool.eq_false_iff.2 hr) hl (Nat.not_lt.1 hd)).alone
  · exact noEffect s

theorem carryChanRelease_effect : carryChanRelease.HasEffect := fun body s => withLength_effect <| by
  cases chanAt body 0 with
  | none => exact noEffect s
  | some ch =>
    dsimp only
    split
    · exact noEffect s
    · next hc =>
      split
      · exact noEffect s
      · next hr => exact (RequestEffect.releases hc (Bool.eq_false_iff.2 hr)).alone

theorem carryChanRead_effect : carryChanRead.HasEffect := fun body s => withLength_effect <| by
  split
  · next ch clear _ _ =>
    cases clear
    · exact noEffect s
    · exact (RequestEffect.changes (.clears (ch := ch))).alone
  · exact noEffect s

/-- A one-byte number. -/
theorem natAt_le (body : List Byte) (i : Nat) : natAt body i ≤ 255 := Nat.le_of_lt_succ (byteAt body i).isLt

theorem carryChanEdge_effect : carryChanEdge.HasEffect := fun body s => withLength_effect <| by
  split
  · next ch select _ _ =>
    split
    · exact noEffect s
    · next c hc => exact (RequestEffect.changes (.resets select hc (natAt_le body 2))).alone
    · exact noEffect s
  · exact noEffect s

/-- A QUEUE_PUT changes the record, and remembers its instant and channel (log 16). -/
theorem putChan_effect {s : State} {ch : ChanIx} {c : Channel} (hc : ChannelRequest s ch c) :
    ∃ u, RequestEffect s u ∧ LinkMoves u { s.setChan ch c with putAt := some (s.now, ch) } := ⟨_, .changes hc, rfl, id⟩

theorem carryQueuePut_effect : carryQueuePut.HasEffect := fun body s => by
  unfold carryQueuePut
  split
  · exact noEffect s
  · cases chanAt body 0 with
    | none => exact noEffect s
    | some ch =>
      dsimp only
      split
      · exact noEffect s
      · exact noEffect s
      · exact noEffect s
      · next c hc =>
        unfold putLevels
        dsimp only
        split
        · exact noEffect s
        · exact putChan_effect (.putsLevels body.tail hc)
      · next c hc =>
        unfold putBursts
        dsimp only
        split
        · exact noEffect s
        · split
          · exact noEffect s
          · next rs hr => exact putChan_effect (.putsBursts hc hr)

theorem carryQueueTake_effect : carryQueueTake.HasEffect := fun body s => withLength_effect <| by
  cases chanAt body 0 with
  | none => exact noEffect s
  | some ch =>
    dsimp only
    split
    · exact noEffect s
    · split
      · exact noEffect s
      · exact noEffect s
      · exact noEffect s
      · next c hc => exact (RequestEffect.changes (.takesSamples _ hc)).alone
      · next c hc => exact (RequestEffect.changes (.takesEdges _ hc)).alone

theorem carryQueueFlush_effect : carryQueueFlush.HasEffect := fun body s => withLength_effect <| by
  cases chanAt body 0 with
  | none => exact noEffect s
  | some ch =>
    dsimp only
    split
    · exact noEffect s
    · exact (RequestEffect.changes (.flushes (ch := ch))).alone

theorem carrySafe_effect : carrySafe.HasEffect := fun _ _ => withLength_effect RequestEffect.causes.alone

theorem carryResume_effect : carryResume.HasEffect := fun body s => withLength_effect <| by
  split
  · exact noEffect s
  · next hn => exact (RequestEffect.resumes hn).alone

theorem carrySilenceSet_effect : carrySilenceSet.HasEffect := fun body s => withLength_effect <| by
  dsimp only
  split
  · next hms => exact (RequestEffect.setsSilence hms).alone
  · exact noEffect s

/-- Every request has its effect (section 10.6). -/
theorem carryOf_effect (kind : Byte) : (carryOf kind).HasEffect := by
  have table : ∀ x ∈ requestTable, Carry.HasEffect x.2 := by
    simp only [requestTable, List.forall_mem_cons, List.not_mem_nil, false_implies, implies_true, and_true]
    exact ⟨carryIdentify_effect, carryStatus_effect, carryReset_effect, carryCycleSet_effect, carryStart_effect,
      carryStop_effect, carryStepPut_effect, carryStepDrop_effect, carryPlanHead_effect, carryPlanClear_effect,
      carryPlanCopy_effect, carryPlanRead_effect, carryPlanCommit_effect, carryCommitCancel_effect, carryChanSet_effect,
      carryChanRelease_effect, carryChanRead_effect, carryChanEdge_effect, carryQueuePut_effect, carryQueueTake_effect,
      carryQueueFlush_effect, carrySafe_effect, carryResume_effect, carrySilenceSet_effect⟩
  unfold carryOf
  cases hl : requestTable.lookup kind with
  | none => exact carryUnknown_effect
  | some carry =>
    obtain ⟨l₁, l₂, hx, -⟩ := List.lookup_eq_some_iff.1 hl
    exact table (kind, carry) (by simp [hx])

/-! ### Events -/

/-- The channel table that the hand-off of a fired step leaves (R53 to R56). -/
inductive HandedOff (s : State) (p : SlotIx) (st : Step) : ChannelTable → Prop
  /-- MARK, and an EMIT that is suppressed (R56, R98). -/
  | unchanged : HandedOff s p st s.chans
  | emitsLevel {ch : ChanIx} {c : LevelChan} (ha : st.action = .emit ch) (hc : s.chan ch = .level c) (hs : s.safe.safe = false) :
    HandedOff s p st (s.setChan ch (.level (c.emit ch p s.walkCycle).1)).chans
  | emitsBurst {ch : ChanIx} {c : BurstChan} (ha : st.action = .emit ch) (hc : s.chan ch = .burst c) (hs : s.safe.safe = false) :
    HandedOff s p st (s.setChan ch (.burst (c.emit s.now ch p s.walkCycle).1)).chans
  | samples {ch : ChanIx} {c : SampleChan} (ha : st.action = .sample ch) (hc : s.chan ch = .sample c) :
    HandedOff s p st (s.setChan ch (.sample (c.append ch ⟨s.walkCycle, p, c.cfg.run.read s.pins.lines⟩).1)).chans
  | opens {ch : ChanIx} {c : EdgeChan} (ha : st.action = .openWindow ch) (hc : s.chan ch = .edge c) :
    HandedOff s p st (s.setChan ch (.edge (c.openWindow s.pins.lines))).chans
  | closes {ch : ChanIx} {c : EdgeChan} (ha : st.action = .closeWindow ch) (hc : s.chan ch = .edge c) :
    HandedOff s p st (s.setChan ch (Channel.edge c).closeWindow).chans

/-- What an event makes of the state, apart from moves of the link. -/
inductive EventEffect (s : State) : State → Prop
  /-- A sample of SYNC (R35). -/
  | samplesSync (l : Level) : EventEffect s { s with pins := { s.pins with sync := l } }
  /-- A boundary that begins a further cycle (R33). -/
  | cycles {flywheel : Bool} (he : s.engine.state = .running)
    (hf : flywheel = true → s.engine.mode = .sync ∨ s.engine.flywheel = true) : EventEffect s (s.entersCycle flywheel).handsOn
  /-- The first rising SYNC edge in ARMED (R32). -/
  | firstCycle (he : s.engine.state = .armed) (hm : s.engine.mode = .sync) :
    EventEffect s (State.handsOn { s with engine := s.engine.startCycle s.now })
  /-- A boundary with stop pending (R42). -/
  | stops (he : s.engine.state = .running) : EventEffect s (s.entersStopped false)
  /-- A step fires (R50). -/
  | fires {p : SlotIx} {st : Step} {chans : ChannelTable} (hf : FiresNow p st s) (hh : HandedOff s p st chans) :
    EventEffect s (s.fired st chans)
  /-- An ON phase ends (R93). -/
  | endsOn {ch : ChanIx} (hd : phaseDue .on ch s = true) :
    EventEffect s (s.setChan ch ((s.chan ch).onBurst (BurstChan.endOn s.now)))
  /-- An OFF phase ends (R93). -/
  | endsOff {ch : ChanIx} (hd : phaseDue .off ch s = true) :
    EventEffect s (s.setChan ch ((s.chan ch).onBurst (BurstChan.endOff s.now)))
  /-- A sample of the field lines (R117, R118). -/
  | samplesLines (levels : BitVec 32) (hw : s.hwReset = none) :
    EventEffect s { s with
      pins := { s.pins with lines := levels }, chans := s.chans.mapRecords (Channel.sampled s.stamp levels) }
  /-- The levels of the field lines change during a hardware reset. -/
  | movesLines (levels : BitVec 32) (hw : s.hwReset.isSome = true) : EventEffect s { s with pins := { s.pins with lines := levels } }
  /-- The debounces of a channel that are due are confirmed (R119, R120). -/
  | confirms {ch : ChanIx} {c : EdgeChan} (hd : debounceDue ch s = true) (hc : s.chan ch = .edge c) :
    EventEffect s (s.setChan ch (.edge (c.confirmDue ch s.now (c.cfg.run.read s.pins.lines)).1))
  /-- A sample of NSTOP (R133). -/
  | samplesNstop (l : Level) : EventEffect s { s with safe := { s.safe with nstop := l } }
  /-- A cause is applied (R130, R131). -/
  | causes (c : Cause) (hw : s.hwReset = none) : EventEffect s (applyCause c s)
  /-- The silence timer stops at its expiry (R134). -/
  | silenceEnds (hd : silenceDue s = true) : EventEffect s { s with safe := { s.safe with timer := none } }
  /-- A valid frame restarts the silence timer (R134). -/
  | silenceRestarts : EventEffect s (restartSilence s)
  /-- A soft reset takes effect (R180). -/
  | softReset (hw : s.hwReset = none) : EventEffect s (softReset s)
  /-- A hardware reset begins (R181). -/
  | resetBegins {cause : ResetCause} {t : State} (ht : exec (.hardwareResetBegin cause) s = .next t) : EventEffect s t
  /-- A hardware reset ends (R181). -/
  | resetEnds {cause : ResetCause} {nstop sync : Level} {midCharacter : Bool} {t : State} (hw : s.hwReset = some cause)
    (ht : exec (.hardwareResetEnd ⟨nstop, sync⟩ midCharacter) s = .next t) : EventEffect s t

/-- The state that the hand-off of a step leaves, with the reply to a QUEUE_PUT of the instant changed (R88). -/
theorem handOff_handedOff {s t : State} {p : SlotIx} {st : Step} {rs : List Raised}
    (h : handOff p st s.walkCycle s = some (t, rs)) : ∃ chans, HandedOff s p st chans ∧ LinkMoves { s with chans := chans } t := by
  unfold handOff at h
  split at h
  · next ch ha =>
    unfold handEmit at h
    split at h
    · next c hc =>
      split at h
      · cases h
        exact ⟨_, .unchanged, .refl _⟩
      · next hs =>
        cases h
        exact ⟨_, .emitsLevel ha hc (Bool.eq_false_iff.2 hs), linkMoves_reportFill _ _ _⟩
    · next c hc =>
      split at h
      · cases h
        exact ⟨_, .unchanged, .refl _⟩
      · next hs =>
        cases h
        exact ⟨_, .emitsBurst ha hc (Bool.eq_false_iff.2 hs), linkMoves_reportFill _ _ _⟩
    · cases h
  · next ch ha =>
    unfold handSample at h
    split at h
    · next c hc =>
      cases h
      exact ⟨_, .samples ha hc, .refl _⟩
    · cases h
  · next ch ha =>
    unfold handOpen at h
    split at h
    · next c hc =>
      cases h
      exact ⟨_, .opens ha hc, .refl _⟩
    · cases h
  · next ch ha =>
    unfold handClose at h
    split at h
    · next c hc =>
      cases h
      exact ⟨_, .closes ha hc, .refl _⟩
    · cases h
  · cases h
    exact ⟨_, .unchanged, .refl _⟩

/-- The moves of the link do not meet the walk. -/
theorem LinkMoves.withWalk {s t : State} (h : LinkMoves s t) (st : Step) (rs : List Raised) :
    LinkMoves { s with walk := s.walk.passed st } { t with walk := t.walk.passed st, raising := rs } := by
  obtain ⟨hb, ht⟩ := h
  refine ⟨?_, ht⟩
  have hw : t.blocks.walk = s.blocks.walk := by rw [hb]
  rw [show t.walk = s.walk from hw]
  exact congrArg (fun b : State => { b with walk := s.walk.passed st }) hb

/-! ### What every step keeps -/

/-- A predicate that survives each thing a step can do: moves of the link, the effects of requests and of events, and the count of the
time base with no command waiting and no event due. -/
structure SurvivesSteps (P : State → Prop) : Prop where
  moves : ∀ {s t}, P s → LinkMoves s t → P t
  requests : ∀ kind, (carryOf kind).Keeps P
  events : ∀ {s t}, P s → EventEffect s t → P t
  counts : ∀ {s}, P s → s.hwReset = none → dueEvents s = [] → P { s with now := s.now + 1 }

/-- Every next state of an outcome meets a predicate. -/
def Answers (P : State → Prop) (o : Out) : Prop := ∀ t, o = .next t → P t

variable {P : State → Prop}

theorem answers_next {t : State} (h : P t) : Answers P (.next t) := by
  rintro _ ⟨⟩
  exact h

theorem answers_ite {b : Prop} [Decidable b] {s k : State} (hk : b → P k) (hs : P s) : Answers P (.next (if b then k else s)) := by
  split
  · exact answers_next (hk ‹_›)
  · exact answers_next hs

theorem answers_whenPowered {s k : State} (hs : P s) (hk : s.hwReset = none → P k) : Answers P (whenPowered s k) := by
  unfold whenPowered
  split
  · exact answers_next hs
  · next hw => exact answers_next (hk (by simpa using hw))

namespace SurvivesSteps

/-- The Dispatcher serves a request by its effect and moves of the link. -/
theorem serve (k : SurvivesSteps P) {s : State} (h : P s) (f : Frame) (kind : Byte) : P (serve f (carryOf kind) s) := by
  have carried : P (carryOf kind f.body s.taken).1 := k.requests kind f.body s.taken (k.moves h ⟨rfl, id⟩)
  unfold Machine.serve
  dsimp only
  split
  · split
    · exact k.moves h ⟨rfl, id⟩
    · exact k.moves carried ⟨rfl, id⟩
  · exact k.moves carried ⟨rfl, id⟩

theorem dispatch (k : SurvivesSteps P) {s : State} (h : P s) (f : Frame) (kind : Byte) : P (dispatch f (carryOf kind) s) := by
  unfold Machine.dispatch
  split
  · exact k.moves (k.serve h f kind) (linkMoves_arbitrateAfter _ _)
  · exact h

theorem serveHeld (k : SurvivesSteps P) {s : State} (h : P s) : P (serveHeld s) := by
  unfold Machine.serveHeld
  split
  · exact k.serve h _ _
  · exact h

/-! #### Characters -/

theorem offerRequest (k : SurvivesSteps P) {s : State} (h : P s) (f : Frame) : P (offerRequest f s) := by
  unfold Machine.offerRequest
  split
  · exact k.moves h (linkMoves_linkError s)
  · have held : P { s with link := { s.link with holding := some f } } := k.moves h ⟨rfl, id⟩
    dsimp only
    split
    · exact k.moves (k.serveHeld held) (linkMoves_arbitrateAfter _ _)
    · exact held

theorem judgeFrame (k : SurvivesSteps P) {s : State} (h : P s) (f : Frame) (received : Nat) : P (judgeFrame f received s) := by
  have hunting : P (setRx .hunt s) := k.moves h (linkMoves_hunt s)
  have restarted : P (restartSilence (setRx .hunt s)) := k.events hunting .silenceRestarts
  unfold Machine.judgeFrame
  dsimp only
  split
  · exact k.moves hunting (linkMoves_linkError _)
  · split
    · exact k.moves hunting (linkMoves_linkError _)
    · split
      · exact k.moves restarted ((linkMoves_takeAck _ _).trans (linkMoves_arbitrate _))
      · exact k.offerRequest restarted f

theorem receiveByte (k : SurvivesSteps P) {s : State} (h : P s) (b : Byte) : P (receiveByte b s) := by
  have moved : P (setRx (s.link.rx.take s.now b).1 s) := k.moves h (linkMoves_setRx (gapEnd_take _ _ _))
  unfold Machine.receiveByte
  dsimp only
  split
  · exact moved
  · exact k.moves moved (linkMoves_linkError _)
  · exact k.judgeFrame moved _ _

theorem receiveFaulty (k : SurvivesSteps P) {s : State} (h : P s) : P (receiveFaulty s) := by
  have waits : P { s with link := { s.link with front := .awaitingHigh } } := k.moves h ⟨rfl, id⟩
  unfold Machine.receiveFaulty
  dsimp only
  split
  · exact waits
  · exact k.moves waits (linkMoves_abandon _)

theorem onCharacter (k : SurvivesSteps P) {f : State → State} (hf : ∀ {u}, P u → P (f u)) {s : State} (h : P s) :
    Answers P (onCharacter f s) := by
  have seeking : P { s with link := { s.link with front := .seeking } } := k.moves h ⟨rfl, id⟩
  refine answers_whenPowered h fun _ => ?_
  split
  · exact seeking
  · exact hf seeking
  · exact hf seeking

/-! #### Boundaries -/

theorem handOn (k : SurvivesSteps P) {s : State} (h : P s.handsOn) : P (handOn s) := by
  rw [handOn_eq]
  exact k.moves h (linkMoves_raiseAll _ _)

theorem newCycle (k : SurvivesSteps P) {s : State} (h : P s) (he : s.engine.state = .running) {flywheel : Bool}
    (hf : flywheel = true → s.engine.mode = .sync ∨ s.engine.flywheel = true) (source : Option NoticeKind) :
    P (newCycle flywheel source s) := by
  have taken := linkMoves_takeRaised s
  have same : (takeRaised s).engine = s.engine := by
    show (takeRaised s).blocks.engine = s.blocks.engine
    rw [taken.1]
  have cycled : P ((takeRaised s).entersCycle flywheel).handsOn :=
    k.events (k.moves h taken) (.cycles (by rw [same]; exact he) (by rw [same]; exact hf))
  rw [newCycle_eq]
  refine k.handOn ?_
  cases source with
  | none => exact cycled
  | some kind => exact k.moves cycled (linkMoves_raise _ ((takeRaised s).entersCycle flywheel).handsOn)

theorem boundary (k : SurvivesSteps P) {s : State} (h : P s) (he : s.engine.state = .running) {flywheel : Bool}
    (hf : flywheel = true → s.engine.mode = .sync ∨ s.engine.flywheel = true) (source : Option NoticeKind) :
    P (boundary flywheel source s) := by
  unfold Machine.boundary
  split
  · rw [stopAtBoundary_eq]
    exact k.moves (k.events h (.stops he)) (linkMoves_raiseAll _ _)
  · exact k.newCycle h he hf source

theorem risingEdge (k : SurvivesSteps P) {s : State} (h : P s) : P (risingEdge s) := by
  unfold Machine.risingEdge
  split
  · next hm he => exact k.handOn (k.events h (.firstCycle he hm))
  · next hm he =>
    split
    · exact k.boundary h he (fun _ => .inl hm) _
    · exact k.boundary h he (fun _ => .inl hm) _
  · exact h

theorem syncRisingEdge (k : SurvivesSteps P) {s : State} (h : P s) : Answers P (execSyncRisingEdge s) := by
  refine answers_whenPowered h fun _ => ?_
  split
  · exact h
  · exact k.moves (k.risingEdge (k.events h (.samplesSync .high))) (linkMoves_arbitrate _)

/-! #### The walker and the channels -/

theorem stepFire (k : SurvivesSteps P) {s : State} (h : P s) : Answers P (execStepFire s) := by
  unfold execStepFire
  split
  · exact answers_next h
  · next hw =>
    split
    · exact answers_next h
    · exact fun t ht => nomatch ht
    · next p st t hs =>
      split
      · next ht =>
        subst ht
        unfold fireStep
        split
        · exact fun t ht => nomatch ht
        · next t rs ho =>
          obtain ⟨chans, hh, hm⟩ := handOff_handedOff ho
          have fired : P (s.fired st chans) := k.events h (.fires ⟨by simpa using hw, hs⟩ hh)
          exact answers_next (k.moves fired ((hm.withWalk st _).trans (linkMoves_settleFirings _)))
      · exact answers_next h

theorem debounceConfirmed (k : SurvivesSteps P) {s : State} (h : P s) (ch : ChanIx) :
    Answers P (execDebounceConfirmed ch s) := by
  refine answers_ite (fun hd => k.moves ?_ (linkMoves_arbitrate _)) h
  unfold confirmChannel
  split
  · next c hc => exact k.moves (k.events h (.confirms hd hc)) (linkMoves_raiseAll _ _)
  · exact h

theorem edgeLineChange (k : SurvivesSteps P) {s : State} (h : P s) (levels : BitVec 32) :
    Answers P (execEdgeLineChange levels s) := by
  unfold execEdgeLineChange whenPowered
  dsimp only
  split
  · next hw => exact answers_next (k.events h (.movesLines levels hw))
  · next hw => exact answers_next (k.events h (.samplesLines levels (by simpa using hw)))

/-! #### The safe state and the resets -/

theorem nstopLow (k : SurvivesSteps P) {s : State} (h : P s) : Answers P (execNstopLow s) := by
  refine answers_whenPowered h fun hw => ?_
  have sampled : P { s with safe := { s.safe with nstop := .low } } := k.events h (.samplesNstop .low)
  dsimp only
  split
  · exact sampled
  · exact k.moves (k.events sampled (.causes .stopLine hw)) (linkMoves_arbitrate _)

theorem silenceTimerExpiry (k : SurvivesSteps P) {s : State} (h : P s) : Answers P (execSilenceTimerExpiry s) := by
  refine answers_ite (fun hd => ?_) h
  have hw : s.hwReset = none := by
    rw [silenceDue, Bool.and_eq_true, Option.isNone_iff_eq_none] at hd
    exact hd.1
  exact k.moves (k.events (k.events h (.silenceEnds hd)) (.causes .silence hw)) (linkMoves_arbitrate _)

theorem replySent (k : SurvivesSteps P) {s : State} (h : P s) : Answers P (execReplySent s) := by
  refine answers_ite (fun hd => ?_) h
  have hw : s.hwReset = none := by
    rw [frameDue, Bool.and_eq_true, Option.isNone_iff_eq_none] at hd
    exact hd.1
  have freed : LinkMoves s (emptySlot (freeTransmitter s)) := (linkMoves_freeTransmitter s).trans ⟨rfl, id⟩
  dsimp only
  split
  · have restarted : P (softReset (emptySlot (freeTransmitter s))) := k.events (k.moves h freed) (.softReset hw)
    exact k.moves (k.serveHeld restarted) (linkMoves_arbitrate _)
  · have before := k.moves h (freed.trans (linkMoves_maybeSendBefore _))
    exact k.moves (k.serveHeld before) (linkMoves_arbitrateAfter _ _)

theorem hardwareResetEnd (k : SurvivesSteps P) {s : State} (h : P s) (samples : FirstSamples) (midCharacter : Bool) :
    Answers P (exec (.hardwareResetEnd samples midCharacter) s) := by
  intro t ht
  cases hw : s.hwReset with
  | some cause => exact k.events h (.resetEnds hw ht)
  | none =>
    have same : exec (.hardwareResetEnd samples midCharacter) s = .next s := by
      show execHardwareResetEnd samples midCharacter s = _
      simp only [execHardwareResetEnd, hw]
    rw [same] at ht
    cases ht
    exact h

/-! #### All steps -/

/-- A due boundary finds the engine RUNNING (R28). -/
theorem boundaryDue_running {s : State} (h : boundaryDue s = true) : s.engine.state = .running := by
  simp only [boundaryDue, Bool.and_eq_true, beq_iff_eq] at h
  obtain ⟨⟨-, he⟩, -⟩ := h
  exact he

/-- Every command keeps the predicate. -/
theorem exec (k : SurvivesSteps P) {s : State} (h : P s) (c : Instr) : Answers P (exec c s) := by
  cases hf : requestFrame? c with
  | some f =>
    rw [exec_request hf]
    exact answers_next (k.dispatch h f f.kind)
  | none =>
    cases c
    case unknownKind seq kind body =>
      have hk : ¬ unknownKindCode kind = true := by simpa [requestFrame?] using hf
      show Answers P (execUnknownKind seq kind body s)
      rw [execUnknownKind, if_neg hk]
      exact answers_next h
    case requestFrameReceived b => exact k.onCharacter (k.receiveByte · b) h
    case ack b => exact k.onCharacter (k.receiveByte · b) h
    case frameDiscarded b => exact k.onCharacter (k.receiveByte · b) h
    case lengthByteAbove240 b => exact k.onCharacter (k.receiveByte · b) h
    case byteTaken b => exact k.onCharacter (k.receiveByte · b) h
    case framingError => exact k.onCharacter k.receiveFaulty h
    case gapLimit => exact answers_ite (fun _ => k.moves h (linkMoves_abandon s)) h
    case replySent => exact k.replySent h
    case noticeFrameSent =>
      exact answers_ite (fun _ => k.moves h ((linkMoves_freeTransmitter s).trans (linkMoves_arbitrate _))) h
    case hardwareResetBegin cause => exact fun t ht => k.events h (.resetBegins ht)
    case hardwareResetEnd samples midCharacter => exact k.hardwareResetEnd h samples midCharacter
    case periodBoundary =>
      refine answers_ite (fun hd => k.moves (k.boundary h ?_ .inr _) (linkMoves_arbitrate _)) h
      exact boundaryDue_running (Bool.and_eq_true_iff.1 hd).1
    case syncRisingEdge => exact k.syncRisingEdge h
    case syncDeadline =>
      refine answers_ite (fun hd => ?_) h
      simp only [deadlineDue, Bool.and_eq_true, beq_iff_eq] at hd
      obtain ⟨⟨hb, hm⟩, -⟩ := hd
      exact k.moves (k.boundary h (boundaryDue_running hb) (fun _ => .inl hm) _) (linkMoves_arbitrate _)
    case flywheelBoundary =>
      refine answers_ite (fun hd => ?_) h
      simp only [flywheelDue, Bool.and_eq_true, beq_iff_eq] at hd
      obtain ⟨⟨hb, hm⟩, -⟩ := hd
      exact k.moves (k.boundary h (boundaryDue_running hb) (fun _ => .inl hm) _) (linkMoves_arbitrate _)
    case stepFire => exact k.stepFire h
    case burstOnPhaseEnd ch => exact answers_ite (fun hd => k.events h (.endsOn hd)) h
    case burstOffPhaseEnd ch => exact answers_ite (fun hd => k.events h (.endsOff hd)) h
    case edgeLineChange levels => exact k.edgeLineChange h levels
    case debounceConfirmed ch => exact k.debounceConfirmed h ch
    case nstopLow => exact k.nstopLow h
    case nstopHigh => exact answers_whenPowered h fun _ => k.events h (.samplesNstop .high)
    case silenceTimerExpiry => exact k.silenceTimerExpiry h
    case retransmitTimerExpiry =>
      exact answers_ite (fun _ => k.moves h ((linkMoves_resendDue s _).trans (linkMoves_arbitrate _))) h
    case syncFallingEdge => exact answers_whenPowered h fun _ => k.events h (.samplesSync .low)
    all_goals cases hf

theorem idle (k : SurvivesSteps P) {s : State} (h : P s) (hd : dueEvents s = []) : P (idle s) := by
  unfold Machine.idle
  split
  · exact h
  · next hw =>
    split
    · exact k.moves h (linkMoves_takeRaised s)
    · split
      · exact k.moves h (linkMoves_arbitrate s)
      · exact k.counts h (by simpa using hw) hd

/-- Every step keeps the predicate: a command, a due event, or the idle step. -/
theorem step (k : SurvivesSteps P) {s t : State} (h : P s) (hstep : step s = .next t) : P t := by
  cases hp : s.pending with
  | cons c rest =>
    have waiting : P { s with pending := rest } := k.moves h ⟨rfl, id⟩
    simp only [Machine.step, hp] at hstep
    exact k.exec waiting c t hstep
  | nil =>
    by_cases hd : dueEvents s = []
    · rw [step_idle hp hd] at hstep
      cases hstep
      exact k.idle h hd
    · obtain ⟨c, n, -, hexec⟩ := step_due hp hd
      rw [hexec] at hstep
      exact k.exec (k.moves h (linkMoves_choices s n)) c t hstep

end SurvivesSteps

end Sys2Proof.Machine
end

section
/-! PROOFS. The engine law (R28, R46, R47, R116) is kept by every step: the fields of the engine and the walk outside a cycle, and
the edge windows of the channels. -/

namespace Sys2Proof.Machine

/-! ### One record, and all of them -/

/-- What holds of every record still does when the new one has it. -/
theorem forall_setChan {Q : Channel → Prop} {s : State} {ch : ChanIx} {c : Channel} (h : ∀ o, Q (s.chan o)) (hc : Q c)
    (o : ChanIx) : Q ((s.setChan ch c).chan o) := by
  by_cases ho : o = ch
  · rw [ho, State.chan_setChan_self]
    exact hc
  · rw [State.chan_setChan_other ho]
    exact h o

/-- Configuring a channel anew replaces its record alone. -/
theorem forall_replace {Q : Channel → Prop} {s : State} {ch : ChanIx} {c : Channel} (h : ∀ o, Q (s.chan o)) (hc : Q c)
    (o : ChanIx) : Q ((s.chans.replace ch c).records.get o) := by
  have same : (s.chans.replace ch c).records = (s.setChan ch c).chans.records := rfl
  rw [same]
  exact forall_setChan h hc o

theorem forall_mapRecords {Q Q' : Channel → Prop} {s : State} {f : Channel → Channel} (h : ∀ o, Q (s.chan o))
    (hf : ∀ c, Q c → Q' (f c)) (o : ChanIx) : Q' ((s.chans.mapRecords f).records.get o) := by
  rw [ChannelTable.mapRecords_get]
  exact hf _ (h o)

/-- The step at the walk pointer, in the fields that it is read from (R50). -/
theorem stepAtPointer_filled {s : State} {p : SlotIx} {st : Step} {t : Nat} (h : stepAtPointer s = some (p, some (st, t))) :
    s.walk.pointer = some p ∧ ∃ id start, s.walk.table = some id ∧ s.engine.cycleStart = some start ∧
      (s.plans.table id).slots.get p = some st ∧ t = start + st.offset := by
  unfold stepAtPointer at h
  split at h
  · next q id start hp ht hs =>
    simp only [Option.some.injEq, Prod.mk.injEq, Option.map_eq_some_iff] at h
    obtain ⟨rfl, st', hst, rfl, rfl⟩ := h
    exact ⟨hp, id, start, ht, hs, hst, rfl⟩
  · cases h

/-! ### The parts of the engine law -/

/-- What the engine law says of the fields of the engine, and of the walk outside a cycle. -/
def Engine.Consistent (e : Engine) (walk : Walk) : Prop :=
  Config.periodMin ≤ e.period ∧ e.period ≤ Config.periodMax ∧
  (e.state = .running ↔ e.cycleStart.isSome = true) ∧
  e.nextBoundary = e.cycleStart.map e.boundaryAfter ∧
  (e.stopPending = true → e.state = .running) ∧
  (e.flywheel = true → e.state = .running ∧ e.mode = .sync) ∧
  (e.state = .armed → e.mode = .sync) ∧
  (e.state ≠ .running → walk = Walk.absent)

/-- What the engine law says of one channel. -/
def Channel.WindowFits (state : EngineState) (c : Channel) : Prop :=
  (c.windowOpen = true → state = .running) ∧ c.quietWhenClosed = true

theorem engineLaw_iff {s : State} :
    EngineLaw s ↔ s.engine.Consistent s.walk ∧ ∀ ch, (s.chan ch).WindowFits s.engine.state := by
  constructor
  · rintro ⟨hmin, hmax, hrun, hnext, hstop, hfly, harm, hwalk, hopen, hquiet⟩
    exact ⟨⟨hmin, hmax, hrun, hnext, hstop, hfly, harm, hwalk⟩, fun ch => ⟨hopen ch, hquiet ch⟩⟩
  · rintro ⟨⟨hmin, hmax, hrun, hnext, hstop, hfly, harm, hwalk⟩, hwindows⟩
    exact ⟨hmin, hmax, hrun, hnext, hstop, hfly, harm, hwalk, fun ch => (hwindows ch).1, fun ch => (hwindows ch).2⟩

/-- The engine law reads the engine, the walk and the channels. -/
theorem EngineLaw.congr {s t : State} (h : EngineLaw s) (he : t.engine = s.engine) (hw : t.walk = s.walk)
    (hc : t.chans = s.chans) : EngineLaw t := by
  rw [engineLaw_iff] at h ⊢
  unfold State.chan at h ⊢
  rw [he, hw, hc]
  exact h

theorem engineLaw_blockLaw : BlockLaw EngineLaw := fun {s t} h hb => by
  have congrBlocks : EngineLaw t.blocks := by
    rw [hb]
    exact h.congr rfl rfl rfl
  exact congrBlocks.congr rfl rfl rfl

/-! ### The engine and the walk -/

/-- Outside RUNNING there is no cycle, no boundary to come, no flag and no walk. -/
theorem Engine.Consistent.halted {e : Engine} {walk : Walk} (h : e.Consistent walk) (he : e.state ≠ .running) :
    e.cycleStart = none ∧ e.nextBoundary = none ∧ e.stopPending = false ∧ e.flywheel = false ∧ walk = Walk.absent := by
  obtain ⟨-, -, hrun, hnext, hstop, hfly, -, hwalk⟩ := h
  have hstart : e.cycleStart = none := by simpa using mt hrun.2 he
  exact ⟨hstart, by rw [hnext, hstart]; rfl, Bool.eq_false_iff.2 (mt hstop he),
    Bool.eq_false_iff.2 fun hf => he (hfly hf).1, hwalk he⟩

/-- An engine that stands still is consistent without flags, cycle and walk (R28). -/
theorem consistent_of_halted {e : Engine} (hmin : Config.periodMin ≤ e.period) (hmax : e.period ≤ Config.periodMax)
    (he : e.state ≠ .running) (harm : e.state = .armed → e.mode = .sync) (hstart : e.cycleStart = none)
    (hnext : e.nextBoundary = none) (hstop : e.stopPending = false) (hfly : e.flywheel = false) : e.Consistent Walk.absent := by
  refine ⟨hmin, hmax, ?_, ?_, ?_, ?_, harm, fun _ => rfl⟩
  · simp [he, hstart]
  · rw [hnext, hstart]
    rfl
  · simp [hstop]
  · simp [hfly]

/-- An engine in a cycle is consistent when flywheel is a matter of SYNC mode (R28). -/
theorem consistent_startCycle {e : Engine} (hmin : Config.periodMin ≤ e.period) (hmax : e.period ≤ Config.periodMax)
    (hf : e.flywheel = true → e.mode = .sync) (start : Nat) (walk : Walk) : (e.startCycle start).Consistent walk :=
  ⟨hmin, hmax, ⟨fun _ => rfl, fun _ => rfl⟩, rfl, fun _ => rfl, fun h => ⟨rfl, hf h⟩, fun h => (nomatch h : False).elim,
    fun h => absurd rfl h⟩

theorem consistent_entersStopped {e : Engine} {walk : Walk} (h : e.Consistent walk) :
    e.entersStopped.Consistent Walk.absent := by
  obtain ⟨hmin, hmax, -⟩ := h
  exact consistent_of_halted hmin hmax EngineState.noConfusion EngineState.noConfusion rfl rfl rfl rfl

/-! ### The edge windows -/

/-- A channel that is no edge channel has no window. -/
theorem windowFits_of_kind {c : Channel} (h : c.kind ≠ .edgeIn) (state : EngineState) : c.WindowFits state := by
  cases c with
  | edge c => exact absurd rfl h
  | _ => exact ⟨fun h => (nomatch h : False).elim, rfl⟩

/-- The window law reads the window and the debounces. -/
theorem Channel.WindowFits.congr {c d : EdgeChan} {state : EngineState} (h : (Channel.edge c).WindowFits state)
    (hw : d.window = c.window) (hd : d.debounces = c.debounces) : (Channel.edge d).WindowFits state := by
  simp only [Channel.WindowFits, Channel.windowOpen, Channel.quietWhenClosed, hw, hd] at h ⊢
  exact h

/-- An OPEN window fits while the engine is RUNNING. -/
theorem windowFits_opened {c : EdgeChan} (h : c.window = .opened) : (Channel.edge c).WindowFits .running :=
  ⟨fun _ => rfl, by simp [Channel.quietWhenClosed, h]⟩

/-- A window without debounces fits when it may be OPEN. -/
theorem windowFits_quiet {c : EdgeChan} {state : EngineState} (h : c.window = .opened → state = .running)
    (hd : c.debounces = noDebounces) : (Channel.edge c).WindowFits state :=
  ⟨fun ho => h (by simpa [Channel.windowOpen] using ho), by simp [Channel.quietWhenClosed, hd]⟩

/-- The window of an edge channel that meets the law is OPEN only while RUNNING. -/
theorem Channel.WindowFits.running {c : EdgeChan} {state : EngineState} (h : (Channel.edge c).WindowFits state)
    (ho : c.window = .opened) : state = .running := h.1 (by simp [Channel.windowOpen, ho])

/-- A change that keeps an OPEN window OPEN, and does nothing else to a CLOSED one, keeps the law. -/
theorem Channel.WindowFits.whileOpen {c d : EdgeChan} {state : EngineState} (h : (Channel.edge c).WindowFits state)
    (hw : d.window = c.window) (hc : c.window = .closed → d = c) : (Channel.edge d).WindowFits state := by
  cases hwin : c.window with
  | closed =>
    rw [hc hwin]
    exact h
  | opened =>
    rw [h.running hwin]
    exact windowFits_opened (hw.trans hwin)

/-- Closing leaves the window law met in every engine state (R115). -/
theorem windowFits_closeWindow {c : Channel} {state : EngineState} (h : c.WindowFits state) (state' : EngineState) :
    c.closeWindow.WindowFits state' := by
  cases c with
  | edge c =>
    rw [closeWindow_edge]
    cases hw : c.window with
    | opened => exact windowFits_quiet (fun h => (nomatch h : False).elim) rfl
    | closed =>
      have hd : c.debounces = noDebounces := by simpa [Channel.quietWhenClosed, hw] using h.2
      exact windowFits_quiet (fun h => (nomatch hw.symm.trans h : False).elim) hd
  | _ => exact windowFits_of_kind ChanKind.noConfusion _

theorem windowFits_atStop {c : Channel} {state : EngineState} (h : c.WindowFits state) (now : Bool) (state' : EngineState) :
    (c.atStop now).WindowFits state' := by
  have cut : c.cutBurst.WindowFits state := by
    cases c with
    | burst c =>
      rw [cutBurst_burst]
      exact windowFits_of_kind ChanKind.noConfusion _
    | _ => exact h
  cases now with
  | false => exact windowFits_closeWindow h _
  | true => exact windowFits_closeWindow cut _

theorem windowFits_toSafe {c : Channel} {state : EngineState} (h : c.WindowFits state) : c.toSafe.WindowFits state := by
  cases c <;> exact h

theorem windowFits_clearCount {c : Channel} {state : EngineState} (h : c.WindowFits state) : c.clearCount.WindowFits state := by
  cases c <;> exact h

theorem windowFits_flushed {c : Channel} {state : EngineState} (h : c.WindowFits state) : c.flushed.WindowFits state := by
  cases c <;> exact h

theorem windowFits_onBurst {c : Channel} {state : EngineState} (h : c.WindowFits state) (f : BurstChan → BurstChan) :
    (c.onBurst f).WindowFits state := by
  cases c <;> exact h

/-- No debounce is in progress after new stamps where none was before. -/
theorem windowFits_restamp {c : Channel} {state : EngineState} (h : c.WindowFits state) (now : Nat) (cycle : CycleNo) :
    (c.restamp now cycle).WindowFits state := by
  cases c with
  | edge c =>
    cases hw : c.window with
    | opened =>
      rw [h.running hw]
      exact windowFits_opened hw
    | closed =>
      have hd : c.debounces = noDebounces := by simpa [Channel.quietWhenClosed, hw] using h.2
      exact windowFits_quiet (fun ho => (nomatch hw.symm.trans ho : False).elim) (by simp [hd, noDebounces])
  | _ => exact h

theorem sampleLine_window (stamp : Stamp) (value : LineValue) (c : EdgeChan) (i : Fin 8) :
    (c.sampleLine stamp value i).window = c.window := by
  unfold EdgeChan.sampleLine
  split
  · rfl
  · split
    · rfl
    · split <;> rfl

theorem foldl_sampleLine_window (stamp : Stamp) (value : LineValue) (lines : List (Fin 8)) (c : EdgeChan) :
    (lines.foldl (EdgeChan.sampleLine stamp value) c).window = c.window := by
  induction lines generalizing c with
  | nil => rfl
  | cons i is ih => exact (ih _).trans (sampleLine_window stamp value c i)

/-- A sample begins debounces behind an OPEN window alone (R117). -/
theorem windowFits_sampled {c : Channel} {state : EngineState} (h : c.WindowFits state) (stamp : Stamp) (levels : BitVec 32) :
    (c.sampled stamp levels).WindowFits state := by
  cases c with
  | edge c =>
    refine Channel.WindowFits.whileOpen h ?_ fun hw => if_neg (by simp [hw])
    split
    · exact foldl_sampleLine_window _ _ _ _
    · rfl
  | _ => exact h

theorem append_window (ch : ChanIx) (r : EdgeRec) (c : EdgeChan) : (c.append ch r).1.window = c.window := rfl

theorem confirmLine_window (ch : ChanIx) (now : Nat) (value : LineValue) (c : EdgeChan) (i : Fin 8) :
    (c.confirmLine ch now value i).1.window = c.window := by
  unfold EdgeChan.confirmLine
  split
  · split
    · unfold EdgeChan.confirm
      dsimp only
      split
      · exact append_window _ _ _
      · rfl
    · rfl
  · rfl

/-- Confirmation leaves the window as it is (R119). -/
theorem confirmDue_window (ch : ChanIx) (now : Nat) (value : LineValue) (c : EdgeChan) :
    (c.confirmDue ch now value).1.window = c.window := by
  have folded : ∀ (lines : List (Fin 8)) (p : EdgeChan × List Raised),
      (lines.foldl (fun p i => ((p.1.confirmLine ch now value i).1, p.2 ++ (p.1.confirmLine ch now value i).2)) p).1.window =
        p.1.window := by
    intro lines
    induction lines with
    | nil => exact fun _ => rfl
    | cons i is ih => exact fun p => (ih _).trans (confirmLine_window ch now value p.1 i)
  exact folded c.lines (c, [])

/-- Debounces are confirmed behind an OPEN window (R119). -/
theorem window_of_debounceDue {s : State} {ch : ChanIx} {c : EdgeChan} (hd : debounceDue ch s = true)
    (hc : s.chan ch = .edge c) : c.window = .opened := by
  simp only [debounceDue, hc, Bool.and_eq_true, beq_iff_eq] at hd
  obtain ⟨-, ⟨⟨hw, -⟩, -⟩, -⟩ := hd
  exact hw

/-- A channel as it is configured: CLOSED, with no debounce (R73). -/
theorem windowFits_install (setup : Setup) (safe : Bool) (lines : BitVec 32) (state : EngineState) :
    (setup.install safe lines).WindowFits state := by
  cases setup with
  | edge cfg select debounce => exact windowFits_quiet (fun h => (nomatch h : False).elim) rfl
  | _ => exact windowFits_of_kind ChanKind.noConfusion _

theorem windowFits_channelRequest {s : State} {ch : ChanIx} {c : Channel} {state : EngineState}
    (h : (s.chan ch).WindowFits state) (e : ChannelRequest s ch c) : c.WindowFits state := by
  cases e with
  | clears => exact windowFits_clearCount h
  | flushes => exact windowFits_flushed h
  | resets select hc hd =>
    rw [hc] at h
    exact windowFits_quiet h.running rfl
  | putsLevels rs hc => exact windowFits_of_kind ChanKind.noConfusion _
  | putsBursts hc hr => exact windowFits_of_kind ChanKind.noConfusion _
  | takesSamples n hc => exact windowFits_of_kind ChanKind.noConfusion _
  | takesEdges n hc =>
    rw [hc] at h
    exact h.congr rfl rfl

/-- A step that OPENs a window fires in a cycle, and so in RUNNING (R55, R114). -/
theorem windowFits_handedOff {s : State} {p : SlotIx} {st : Step} {chans : ChannelTable} (he : s.engine.state = .running)
    (h : ∀ ch, (s.chan ch).WindowFits s.engine.state) (e : HandedOff s p st chans) (ch : ChanIx) :
    (chans.records.get ch).WindowFits s.engine.state := by
  cases e with
  | unchanged => exact h ch
  | emitsLevel ha hc hs => exact forall_setChan (Q := Channel.WindowFits _) h (windowFits_of_kind ChanKind.noConfusion _) ch
  | emitsBurst ha hc hs => exact forall_setChan (Q := Channel.WindowFits _) h (windowFits_of_kind ChanKind.noConfusion _) ch
  | samples ha hc => exact forall_setChan (Q := Channel.WindowFits _) h (windowFits_of_kind ChanKind.noConfusion _) ch
  | @opens o c ha hc =>
    refine forall_setChan (Q := Channel.WindowFits _) h ?_ ch
    rw [he]
    refine windowFits_opened ?_
    unfold EdgeChan.openWindow
    split
    · assumption
    · rfl
  | @closes o c ha hc =>
    have hedge := h o
    rw [hc] at hedge
    exact forall_setChan (Q := Channel.WindowFits _) h (windowFits_closeWindow hedge _) ch

/-! ### Requests -/

theorem engineLaw_entersStopped {s : State} (h : EngineLaw s) (now : Bool) : EngineLaw (s.entersStopped now) := by
  obtain ⟨he, hwindows⟩ := engineLaw_iff.1 h
  exact engineLaw_iff.2 ⟨consistent_entersStopped he, forall_mapRecords hwindows fun _ hc => windowFits_atStop hc now _⟩

theorem engineLaw_applyCause {s : State} (h : EngineLaw s) (c : Cause) : EngineLaw (applyCause c s) := by
  unfold applyCause
  split
  · exact h.congr rfl rfl rfl
  · obtain ⟨he, hwindows⟩ := engineLaw_iff.1 h
    have safe : EngineLaw { s with chans := s.chans.mapRecords Channel.toSafe } :=
      engineLaw_iff.2 ⟨he, forall_mapRecords hwindows fun _ => windowFits_toSafe⟩
    exact safe.congr rfl rfl rfl

theorem engineLaw_setChan {s : State} (h : EngineLaw s) {ch : ChanIx} {c : Channel} (hc : c.WindowFits s.engine.state) :
    EngineLaw (s.setChan ch c) := by
  obtain ⟨he, hwindows⟩ := engineLaw_iff.1 h
  exact engineLaw_iff.2 ⟨he, forall_setChan hwindows hc⟩

theorem engineLaw_replace {s : State} (h : EngineLaw s) (ch : ChanIx) {c : Channel} (hc : c.WindowFits s.engine.state) :
    EngineLaw { s with chans := s.chans.replace ch c } := by
  obtain ⟨he, hwindows⟩ := engineLaw_iff.1 h
  exact engineLaw_iff.2 ⟨he, forall_replace hwindows hc⟩

theorem engineLaw_requestEffect {s u : State} (h : EngineLaw s) (e : RequestEffect s u) : EngineLaw u := by
  obtain ⟨he, hwindows⟩ := engineLaw_iff.1 h
  have ⟨hmin, hmax, hrun, hnext, hstop, hfly, harm, hwalk⟩ := he
  -- a window that is OPEN would say that the engine is RUNNING
  have closed : s.engine.state = .stopped → ∀ state ch, (s.chan ch).WindowFits state := fun hs state ch =>
    ⟨fun ho => (nomatch hs.symm.trans ((hwindows ch).1 ho) : False).elim, (hwindows ch).2⟩
  cases e with
  | nothing => exact h
  | settings mode hs hpmin hpmax hslots =>
    obtain ⟨hstart, hnone, hpending, hflag, habsent⟩ := he.halted (by simp [hs])
    refine engineLaw_iff.2 ⟨?_, hwindows⟩
    show Engine.Consistent _ s.walk
    rw [habsent]
    exact consistent_of_halted hpmin hpmax (by simp [hs]) (by simp [hs]) hstart hnone hpending hflag
  | starts hs hm =>
    obtain ⟨-, -, -, hflag, -⟩ := he.halted (by simp [hs])
    exact engineLaw_iff.2 ⟨consistent_startCycle hmin hmax (by simp [hflag]) _ _, closed hs _⟩
  | arms hs hm =>
    obtain ⟨hstart, hnone, hpending, hflag, habsent⟩ := he.halted (by simp [hs])
    refine engineLaw_iff.2 ⟨?_, closed hs _⟩
    show Engine.Consistent _ s.walk
    rw [habsent]
    exact consistent_of_halted hmin hmax EngineState.noConfusion (fun _ => hm) hstart hnone hpending hflag
  | stopPends hs => exact engineLaw_iff.2 ⟨⟨hmin, hmax, hrun, hnext, fun _ => hs, hfly, harm, hwalk⟩, hwindows⟩
  | stops now hs => exact engineLaw_entersStopped h now
  | edits t hp => exact h.congr rfl rfl rfl
  | swaps hp hs hv => exact h.congr rfl rfl rfl
  | swapPends hp hs hv => exact h.congr rfl rfl rfl
  | cancels => exact h.congr rfl rfl rfl
  | installs hset hr hl hd => exact engineLaw_replace h _ (windowFits_install _ _ _ _)
  | releases hc hr => exact engineLaw_replace h _ (windowFits_of_kind ChanKind.noConfusion _)
  | changes hc => exact engineLaw_setChan h (windowFits_channelRequest (hwindows _) hc)
  | causes => exact engineLaw_applyCause h _
  | resumes hn => exact h.congr rfl rfl rfl
  | setsSilence hms => exact h.congr rfl rfl rfl

/-! ### Events -/

/-- A state with the engine, the walk and the channels of a reset. -/
theorem engineLaw_cleared {s : State} (he : s.engine = Engine.afterReset) (hw : s.walk = Walk.absent)
    (hc : s.chans = ChannelTable.afterReset) : EngineLaw s := engineLaw_reset.congr he hw hc

theorem engineLaw_softReset (s : State) : EngineLaw (softReset s) := by
  unfold softReset announceReset
  dsimp only
  split
  · exact engineLaw_applyCause (engineLaw_cleared rfl rfl rfl) _
  · exact engineLaw_cleared rfl rfl rfl

/-- The stamps at a boundary change no window. -/
theorem windowFits_stampAtBoundary {s : State} {state : EngineState} (h : ∀ ch, (s.chan ch).WindowFits state)
    (cycle : CycleNo) (ch : ChanIx) : ((stampAtBoundary cycle s).records.get ch).WindowFits state := by
  unfold stampAtBoundary
  split
  · exact h ch
  · exact forall_mapRecords h (fun _ hc => windowFits_restamp hc _ _) ch

theorem engineLaw_eventEffect {s u : State} (h : EngineLaw s) (e : EventEffect s u) : EngineLaw u := by
  obtain ⟨he, hwindows⟩ := engineLaw_iff.1 h
  have ⟨hmin, hmax, hrun, hnext, hstop, hfly, harm, hwalk⟩ := he
  cases e with
  | samplesSync l => exact h.congr rfl rfl rfl
  | @cycles flywheel hs hf =>
    refine engineLaw_iff.2 ⟨consistent_startCycle (e := { s.engine with cycle := s.engine.cycle + 1, flywheel := flywheel }) hmin
      hmax (fun hset => ?_) _ _, ?_⟩
    · exact (hf hset).elim id fun hflag => (hfly hflag).2
    · rw [hs] at hwindows
      exact windowFits_stampAtBoundary hwindows _
  | firstCycle hs hm =>
    refine engineLaw_iff.2 ⟨consistent_startCycle hmin hmax (fun _ => hm) _ _, fun ch => ⟨fun ho => ?_, (hwindows ch).2⟩⟩
    exact (nomatch hs.symm.trans ((hwindows ch).1 ho) : False).elim
  | stops hs => exact engineLaw_entersStopped h false
  | fires hf hh =>
    obtain ⟨-, id, start, -, hstart, -⟩ := stepAtPointer_filled hf.2
    have hs : s.engine.state = .running := hrun.2 (by rw [hstart]; rfl)
    exact engineLaw_iff.2 ⟨⟨hmin, hmax, hrun, hnext, hstop, hfly, harm, fun hn => absurd hs hn⟩,
      windowFits_handedOff (s := s) hs hwindows hh⟩
  | endsOn hd => exact engineLaw_setChan h (windowFits_onBurst (hwindows _) _)
  | endsOff hd => exact engineLaw_setChan h (windowFits_onBurst (hwindows _) _)
  | samplesLines levels hw =>
    exact engineLaw_iff.2 ⟨he, forall_mapRecords hwindows fun _ hc => windowFits_sampled hc _ _⟩
  | movesLines levels hw => exact h.congr rfl rfl rfl
  | @confirms ch c hd hc =>
    have hopened := window_of_debounceDue hd hc
    have hedge := hwindows ch
    rw [hc] at hedge
    refine engineLaw_setChan h ?_
    rw [hedge.running hopened]
    exact windowFits_opened ((confirmDue_window _ _ _ _).trans hopened)
  | samplesNstop l => exact h.congr rfl rfl rfl
  | causes c hw => exact engineLaw_applyCause h c
  | silenceEnds hd => exact h.congr rfl rfl rfl
  | silenceRestarts => exact h.congr rfl rfl rfl
  | softReset hw => exact engineLaw_softReset s
  | resetBegins ht =>
    cases ht
    exact engineLaw_cleared rfl rfl rfl
  | resetEnds hw ht =>
    rw [exec_hardwareResetEnd hw] at ht
    cases ht
    exact engineLaw_cleared rfl rfl rfl

theorem engineLaw_survives : SurvivesSteps EngineLaw where
  moves h hm := engineLaw_blockLaw h hm.1
  requests kind body s h := by
    obtain ⟨u, he, hm⟩ := carryOf_effect kind body s
    exact engineLaw_blockLaw (engineLaw_requestEffect h he) hm.1
  events := engineLaw_eventEffect
  counts h _ _ := h.congr rfl rfl rfl

/-- Settles O54: every effect of a request or an event keeps the engine law. -/
theorem engineLawKept : Obligations.EngineLawKept := fun _ _ => engineLaw_survives.step

end Sys2Proof.Machine
end

section
/-! PROOFS. The law of appointments (R27, R28, R50, R62, R93, R134) is kept by every step of a state that meets the plan law. -/

namespace Sys2Proof.Machine

/-! ### The parts of the law -/

/-- Only a RUNNING engine has a next boundary, and it is not overdue (R28). -/
def Engine.OnTime (now : Nat) (e : Engine) : Prop :=
  (e.nextBoundary.isSome = true → e.state = .running) ∧ notPast now e.nextBoundary

/-- The phase of a burst in flight is not overdue (R93). -/
def Channel.OnTime (now : Nat) (c : Channel) : Prop := notPast now (c.burst?.map Burst.phaseEnd)

theorem timeLaw_iff {s : State} :
    TimeLaw s ↔ s.engine.OnTime s.now ∧ notPast s.now s.stepInstant ∧ notPast s.now s.safe.timer ∧
      (∀ ch, (s.chan ch).OnTime s.now) ∧ LinkOnTime s := by
  constructor
  · rintro ⟨hrun, hnext, hstep, hsilence, hretransmit, htx, hgap, hburst⟩
    exact ⟨⟨hrun, hnext⟩, hstep, hsilence, hburst, hretransmit, htx, hgap⟩
  · rintro ⟨⟨hrun, hnext⟩, hstep, hsilence, hburst, hretransmit, htx, hgap⟩
    exact ⟨hrun, hnext, hstep, hsilence, hretransmit, htx, hgap, hburst⟩

/-- Beside the appointments of the link, the law reads the blocks. -/
theorem TimeLaw.moves {s t : State} (h : TimeLaw s) (hm : LinkMoves s t) : TimeLaw t := by
  obtain ⟨he, hstep, hsilence, hburst, hlink⟩ := timeLaw_iff.1 h
  have blocks : s.blocks.engine.OnTime s.blocks.now ∧ notPast s.blocks.now s.blocks.stepInstant ∧
      notPast s.blocks.now s.blocks.safe.timer ∧ ∀ ch, (s.blocks.chan ch).OnTime s.blocks.now := ⟨he, hstep, hsilence, hburst⟩
  rw [← hm.1] at blocks
  obtain ⟨he, hstep, hsilence, hburst⟩ := blocks
  exact timeLaw_iff.2 ⟨he, hstep, hsilence, hburst, hm.2 hlink⟩

/-- A link with no timer running, no frame on TXD and none coming in has no appointment. -/
theorem linkOnTime_idle {s : State} (ht : s.notices.timer = none) (hx : s.link.tx = none) (hr : s.link.rx = .hunt) :
    LinkOnTime s := by
  unfold LinkOnTime
  rw [ht, hx, hr]
  exact ⟨notPast_none _, notPast_none _, notPast_none _⟩

theorem Engine.onTime_none {e : Engine} (h : e.nextBoundary = none) (now : Nat) : e.OnTime now := by
  unfold Engine.OnTime
  rw [h]
  exact ⟨fun hs => absurd hs Bool.false_ne_true, notPast_none now⟩

/-- A halted engine that is on time has no next boundary. -/
theorem Engine.OnTime.halted {e : Engine} {now : Nat} (h : e.OnTime now) (he : e.state ≠ .running) : e.nextBoundary = none := by
  simpa using mt h.1 he

/-- The next boundary of a cycle does not lie before its start (R28). -/
theorem onTime_startCycle (e : Engine) (now : Nat) : (e.startCycle now).OnTime now := by
  refine ⟨fun _ => rfl, notPast_some ?_⟩
  unfold Engine.boundaryAfter
  split
  · exact Nat.le_add_right _ _
  · split
    · exact Nat.le_add_right _ _
    · omega

/-! ### The step at the walk pointer -/

theorem stepInstant_done {s : State} (h : s.walk.pointer = none) : s.stepInstant = none := by
  simp [State.stepInstant, stepAtPointer, h]

/-- A walk that is DONE has no step to come. -/
theorem notPast_stepInstant_done {s : State} (h : s.walk.pointer = none) (now : Nat) : notPast now s.stepInstant := by
  rw [stepInstant_done h]
  exact notPast_none now

theorem mem_stepInstant {s : State} {t : Nat} (h : t ∈ s.stepInstant) : ∃ p st, stepAtPointer s = some (p, some (st, t)) := by
  unfold State.stepInstant at h
  split at h
  · next p st t' hs =>
    cases h
    exact ⟨p, st, hs⟩
  · cases h

/-- No step of a cycle that begins now is overdue (R50). -/
theorem stepInstant_begun {s : State} (h : s.engine.cycleStart = some s.now) : notPast s.now s.stepInstant := by
  intro t ht
  obtain ⟨p, st, hs⟩ := mem_stepInstant ht
  obtain ⟨-, id, start, -, hstart, -, rfl⟩ := stepAtPointer_filled hs
  obtain rfl : s.now = start := Option.some.inj (h.symm.trans hstart)
  exact Nat.le_add_right _ _

/-- A walk that meets the plan law reads the active plan, so that the next step fires when the active plan says. -/
theorem stepInstant_congr {s t : State} (hs : PlanLaw s) (ht : PlanLaw t) (hw : t.walk = s.walk)
    (hc : t.engine.cycleStart = s.engine.cycleStart) (hp : t.plans.activeTable = s.plans.activeTable) :
    t.stepInstant = s.stepInstant := by
  cases hpointer : s.walk.pointer with
  | none => rw [stepInstant_done hpointer, stepInstant_done (by rw [hw, hpointer])]
  | some p =>
    obtain ⟨st, htable, -⟩ := hs.step_fits hpointer
    obtain ⟨st', htable', -⟩ := ht.step_fits (p := p) (by rw [hw, hpointer])
    have slots : (t.plans.table t.plans.active).slots = (s.plans.table s.plans.active).slots := congrArg PlanTable.slots hp
    unfold State.stepInstant stepAtPointer
    rw [htable, htable', hw, hc, hpointer]
    cases s.engine.cycleStart with
    | none => rfl
    | some start => simp only [slots]

/-- Offsets do not decrease along the walk: the step behind the one that fires now is not overdue (R14, R24, R50). -/
theorem stepInstant_passed {s : State} {p : SlotIx} {st : Step} (h : PlanLaw s) (hf : FiresNow p st s) :
    notPast s.now ({ s with walk := s.walk.passed st } : State).stepInstant := by
  obtain ⟨hpointer, id, start, htable, hstart, hst, hnow⟩ := stepAtPointer_filled hf.2
  intro t ht
  obtain ⟨q, st', hs⟩ := mem_stepInstant ht
  obtain ⟨hnext, id', start', htable', hstart', hst', rfl⟩ := stepAtPointer_filled hs
  obtain rfl : start = start' := Option.some.inj (hstart.symm.trans hstart')
  obtain rfl : id = id' := Option.some.inj (htable.symm.trans htable')
  obtain ⟨hv, -, hw⟩ := h
  unfold walkOnPlan at hw
  rw [hpointer] at hw
  obtain ⟨-, hactive, -, -, hsuffix, -⟩ := hw
  obtain rfl : id = s.plans.active := Option.some.inj (htable.symm.trans hactive)
  obtain ⟨hcons, -⟩ := chainFrom_next hv hst hsuffix
  obtain ⟨-, -, -, hsorted⟩ := PlanTable.valid_iff.1 hv
  have hlater : st.offset ≤ st'.offset := by
    have hcons' : chainFrom s.plans.activeTable 48 (some q) = (q, st') :: _ := chainFrom_filledSlot hst' 47
    have hpair := hsorted.sublist hsuffix.sublist
    rw [hcons, show st.next = some q from hnext, hcons', List.pairwise_cons] at hpair
    exact hpair.1 _ List.mem_cons_self
  show s.now ≤ start + st'.offset
  omega

/-! ### Bursts -/

theorem onTime_noBurst {c : Channel} (h : c.burst? = none) (now : Nat) : c.OnTime now := by
  unfold Channel.OnTime
  rw [h]
  exact notPast_none now

theorem onTime_sameBurst {c d : Channel} {now : Nat} (h : c.OnTime now) (hd : d.burst? = c.burst?) : d.OnTime now := by
  unfold Channel.OnTime
  rw [hd]
  exact h

/-- A phase that begins now does not end before now (R93). -/
theorem onTime_phase {c : BurstChan} {b : Burst} {now time : Nat} (h : c.burst = some b) (hb : b.phaseEnd = now + time) :
    (Channel.burst c).OnTime now := by
  show notPast now (c.burst.map Burst.phaseEnd)
  rw [h, Option.map_some, hb]
  exact notPast_some (Nat.le_add_right _ _)

theorem onTime_toSafe {c : Channel} {now : Nat} (h : c.OnTime now) : c.toSafe.OnTime now := by
  cases c with
  | burst c => exact onTime_noBurst rfl now
  | _ => exact h

theorem closeWindow_burst? (c : Channel) : c.closeWindow.burst? = c.burst? := by
  cases c with
  | edge c =>
    rw [closeWindow_edge]
    rfl
  | _ => rfl

theorem onTime_atStop {c : Channel} {now : Nat} (h : c.OnTime now) (atOnce : Bool) : (c.atStop atOnce).OnTime now := by
  have cut : c.cutBurst.OnTime now := by
    cases c with
    | burst c =>
      rw [cutBurst_burst]
      split
      · exact onTime_noBurst rfl now
      · exact h
    | _ => exact h
  cases atOnce with
  | false => exact onTime_sameBurst h (closeWindow_burst? c)
  | true => exact onTime_sameBurst cut (closeWindow_burst? _)

theorem onTime_stampAtBoundary {s : State} (h : ∀ ch, (s.chan ch).OnTime s.now) (cycle : CycleNo) (ch : ChanIx) :
    ((stampAtBoundary cycle s).records.get ch).OnTime s.now := by
  have stamped : ∀ c : Channel, (c.restamp s.now cycle).burst? = c.burst? := fun c => by cases c <;> rfl
  unfold stampAtBoundary
  split
  · exact h ch
  · exact forall_mapRecords h (fun c hc => onTime_sameBurst hc (stamped c)) ch

theorem onTime_sampled {c : Channel} {now : Nat} (h : c.OnTime now) (stamp : Stamp) (levels : BitVec 32) :
    (c.sampled stamp levels).OnTime now := by
  cases c <;> exact h

/-- The end of an ON phase begins an OFF phase (R93). -/
theorem onTime_endOn {c : Channel} (now : Nat) : (c.onBurst (BurstChan.endOn now)).OnTime now := by
  cases c with
  | burst c =>
    cases hb : c.burst with
    | none => exact onTime_noBurst (by simp [Channel.onBurst, Channel.burst?, BurstChan.endOn, hb]) now
    | some b => exact onTime_phase (by simp only [BurstChan.endOn, hb, Option.map_some]; rfl) rfl
  | _ => exact onTime_noBurst rfl now

/-- The end of an OFF phase begins an ON phase, or ends the burst (R93). -/
theorem onTime_endOff {c : Channel} (now : Nat) : (c.onBurst (BurstChan.endOff now)).OnTime now := by
  cases c with
  | burst c =>
    unfold Channel.onBurst BurstChan.endOff
    dsimp only
    split
    · next hb => exact onTime_noBurst (c := .burst c) hb now
    · split
      · exact onTime_noBurst rfl now
      · exact onTime_phase rfl rfl
  | _ => exact onTime_noBurst rfl now

/-- An EMIT starts a burst now, or leaves the burst in flight (R92, R93). -/
theorem onTime_emit {c : BurstChan} {now : Nat} (h : (Channel.burst c).OnTime now) (ch : ChanIx) (p : SlotIx) (cycle : CycleNo) :
    (Channel.burst (c.emit now ch p cycle).1).OnTime now := by
  unfold BurstChan.emit
  split
  · exact onTime_sameBurst h rfl
  · exact onTime_phase rfl rfl
  · exact onTime_sameBurst h rfl

theorem onTime_channelRequest {s : State} {ch : ChanIx} {c : Channel} {now : Nat} (h : (s.chan ch).OnTime now)
    (e : ChannelRequest s ch c) : c.OnTime now := by
  cases e with
  | clears => exact onTime_sameBurst h (by cases s.chan ch <;> rfl)
  | flushes => exact onTime_sameBurst h (by cases s.chan ch <;> rfl)
  | putsBursts hc hr => exact onTime_sameBurst h (by rw [hc]; rfl)
  | resets select hc hd => exact onTime_noBurst rfl now
  | putsLevels rs hc => exact onTime_noBurst rfl now
  | takesSamples n hc => exact onTime_noBurst rfl now
  | takesEdges n hc => exact onTime_noBurst rfl now

theorem onTime_handedOff {s : State} {p : SlotIx} {st : Step} {chans : ChannelTable} (h : ∀ ch, (s.chan ch).OnTime s.now)
    (e : HandedOff s p st chans) (ch : ChanIx) : (chans.records.get ch).OnTime s.now := by
  cases e with
  | unchanged => exact h ch
  | @emitsBurst o c ha hc hs =>
    have hburst := h o
    rw [hc] at hburst
    exact forall_setChan (Q := Channel.OnTime s.now) h (onTime_emit hburst _ _ _) ch
  | closes ha hc =>
    exact forall_setChan (Q := Channel.OnTime s.now) h (onTime_noBurst (closeWindow_burst? _) _) ch
  | emitsLevel ha hc hs => exact forall_setChan (Q := Channel.OnTime s.now) h (onTime_noBurst rfl _) ch
  | samples ha hc => exact forall_setChan (Q := Channel.OnTime s.now) h (onTime_noBurst rfl _) ch
  | opens ha hc => exact forall_setChan (Q := Channel.OnTime s.now) h (onTime_noBurst rfl _) ch

/-! ### Changes of one block -/

/-- The silence timer expires a period from now, or not at all (R134). -/
theorem notPast_silenceExpiry (period now : Nat) : notPast now (silenceExpiry period now) := by
  unfold silenceExpiry
  split
  · exact notPast_none now
  · exact notPast_some (Nat.le_add_right _ _)

theorem timeLaw_silence {s : State} (h : TimeLaw s) {safe : SafeControl} (hs : notPast s.now safe.timer) :
    TimeLaw { s with safe := safe } := by
  obtain ⟨he, hstep, -, hburst, hlink⟩ := timeLaw_iff.1 h
  exact timeLaw_iff.2 ⟨he, hstep, hs, hburst, hlink⟩

theorem timeLaw_pins {s : State} (h : TimeLaw s) (pins : Pins) : TimeLaw { s with pins := pins } := by
  obtain ⟨he, hstep, hsilence, hburst, hlink⟩ := timeLaw_iff.1 h
  exact timeLaw_iff.2 ⟨he, hstep, hsilence, hburst, hlink⟩

theorem timeLaw_chans {s : State} (h : TimeLaw s) {chans : ChannelTable} (hc : ∀ ch, (chans.records.get ch).OnTime s.now) :
    TimeLaw { s with chans := chans } := by
  obtain ⟨he, hstep, hsilence, -, hlink⟩ := timeLaw_iff.1 h
  exact timeLaw_iff.2 ⟨he, hstep, hsilence, hc, hlink⟩

theorem timeLaw_setChan {s : State} (h : TimeLaw s) {ch : ChanIx} {c : Channel} (hc : c.OnTime s.now) :
    TimeLaw (s.setChan ch c) := by
  obtain ⟨-, -, -, hburst, -⟩ := timeLaw_iff.1 h
  exact timeLaw_chans h (forall_setChan (Q := Channel.OnTime s.now) hburst hc)

theorem timeLaw_replace {s : State} (h : TimeLaw s) (ch : ChanIx) {c : Channel} (hc : c.OnTime s.now) :
    TimeLaw { s with chans := s.chans.replace ch c } := by
  obtain ⟨-, -, -, hburst, -⟩ := timeLaw_iff.1 h
  exact timeLaw_chans h (forall_replace (Q := Channel.OnTime s.now) hburst hc)

theorem timeLaw_applyCause {s : State} (h : TimeLaw s) (c : Cause) : TimeLaw (applyCause c s) := by
  obtain ⟨-, -, hsilence, hburst, -⟩ := timeLaw_iff.1 h
  unfold applyCause
  split
  · exact timeLaw_silence h hsilence
  · have safe : TimeLaw { s with chans := s.chans.mapRecords Channel.toSafe } :=
      timeLaw_chans h (forall_mapRecords (Q := Channel.OnTime s.now) hburst fun _ => onTime_toSafe)
    have set : TimeLaw { s with
        chans := s.chans.mapRecords Channel.toSafe
        safe := { s.safe with safe := true, causes := CauseSet.none.add c, safeOut := .low } } := timeLaw_silence safe hsilence
    exact set.moves (linkMoves_raise _ _)

/-- No walk, no cycle and no channel: what is left are the timers of the safe state and of the link. -/
theorem timeLaw_cleared {s : State} (he : s.engine = Engine.afterReset) (hw : s.walk = Walk.absent)
    (hc : s.chans = ChannelTable.afterReset) (hs : notPast s.now s.safe.timer) (hl : LinkOnTime s) : TimeLaw s := by
  refine timeLaw_iff.2 ⟨Engine.onTime_none (by rw [he]; rfl) _, ?_, hs, fun ch => onTime_noBurst ?_ _, hl⟩
  · exact notPast_stepInstant_done (by rw [hw]; rfl) _
  · rw [State.chan, hc, records_afterReset]
    rfl

/-- A halted engine, without a walk. -/
theorem timeLaw_entersStopped {s : State} (h : TimeLaw s) (now : Bool) : TimeLaw (s.entersStopped now) := by
  obtain ⟨-, -, hsilence, hburst, hlink⟩ := timeLaw_iff.1 h
  exact timeLaw_iff.2 ⟨Engine.onTime_none rfl _, notPast_stepInstant_done rfl _, hsilence,
    forall_mapRecords (Q := Channel.OnTime s.now) hburst fun _ hc => onTime_atStop hc now, hlink⟩

/-- A plan change that leaves the plan walked alone (R5, R16, R17, R20). -/
theorem timeLaw_plans {s : State} (h : TimeLaw s) {plans : PlanStore} (hs : PlanLaw s) (hu : PlanLaw { s with plans := plans })
    (hp : plans.activeTable = s.plans.activeTable) : TimeLaw { s with plans := plans } := by
  obtain ⟨he, hstep, hsilence, hburst, hlink⟩ := timeLaw_iff.1 h
  refine timeLaw_iff.2 ⟨he, ?_, hsilence, hburst, hlink⟩
  rw [stepInstant_congr hs hu rfl rfl hp]
  exact hstep

/-- A cycle that begins now, with any walk (R32, R33, R48). -/
theorem timeLaw_begins {s u : State} (h : TimeLaw s) {e : Engine} (he : u.engine = e.startCycle s.now) (hn : u.now = s.now)
    (hs : u.safe = s.safe) (hc : ∀ ch, (u.chan ch).OnTime s.now) (hl : LinkOnTime s → LinkOnTime u) : TimeLaw u := by
  obtain ⟨-, -, hsilence, -, hlink⟩ := timeLaw_iff.1 h
  refine timeLaw_iff.2 ⟨?_, stepInstant_begun ?_, ?_, ?_, hl hlink⟩
  · rw [he, hn]
    exact onTime_startCycle e s.now
  · rw [he, hn]
    rfl
  · rw [hn, hs]
    exact hsilence
  · rw [hn]
    exact hc

/-! ### Requests and events -/

theorem timeLaw_requestEffect {s u : State} (hs : PlanLaw s) (hu : PlanLaw u) (h : TimeLaw s) (e : RequestEffect s u) :
    TimeLaw u := by
  obtain ⟨he, hstep, hsilence, hburst, hlink⟩ := timeLaw_iff.1 h
  cases e with
  | nothing => exact h
  | settings mode hstop hmin hmax hslots => exact timeLaw_iff.2 ⟨he, hstep, hsilence, hburst, hlink⟩
  | starts hstop hm => exact timeLaw_begins h rfl rfl rfl hburst id
  | arms hstop hm =>
    have hnone := he.halted (by simp [hstop])
    have armed := Engine.onTime_none (e := { s.engine with cycle := 0, state := .armed }) hnone s.now
    exact timeLaw_iff.2 ⟨armed, hstep, hsilence, hburst, hlink⟩
  | stopPends hrun => exact timeLaw_iff.2 ⟨⟨fun _ => hrun, he.2⟩, hstep, hsilence, hburst, hlink⟩
  | stops now hstate => exact timeLaw_entersStopped h now
  | edits t hp => exact timeLaw_plans h hs hu (s.plans.setStandby_activeTable t)
  | swaps hp hstop hv =>
    obtain ⟨hpointer, -⟩ := hs.walk_done (by simp [hstop])
    exact timeLaw_iff.2 ⟨he, notPast_stepInstant_done hpointer _, hsilence, hburst, hlink⟩
  | swapPends hp hstate hv => exact timeLaw_plans h hs hu rfl
  | cancels => exact timeLaw_plans h hs hu rfl
  | @installs ch body setup hset hr hl hd =>
    exact timeLaw_replace h _ (onTime_noBurst (by cases setup <;> rfl) _)
  | releases hc hr => exact timeLaw_replace h _ (onTime_noBurst rfl _)
  | changes hc => exact timeLaw_setChan h (onTime_channelRequest (hburst _) hc)
  | causes => exact timeLaw_applyCause h _
  | resumes hn => exact timeLaw_silence h hsilence
  | setsSilence hms => exact timeLaw_silence h (notPast_silenceExpiry _ _)

/-- READY and, with NSTOP low, STOP_LINE leave no appointment overdue (R139, R154). -/
theorem timeLaw_announceReset {s : State} (h : TimeLaw s) (cause : Byte) : TimeLaw (announceReset cause s) := by
  have ready := h.moves (linkMoves_raise { kind := .ready, subject := some cause, detail := 0, cycle := 0 } s)
  unfold announceReset
  dsimp only
  split
  · exact timeLaw_applyCause ready _
  · exact ready

/-- The soft reset keeps the timers of the link, but for the retransmit timer, which is stopped (R155, R180). -/
theorem timeLaw_softReset {s : State} (h : TimeLaw s) : TimeLaw (softReset s) := by
  obtain ⟨-, -, -, -, -, htx, hgap⟩ := timeLaw_iff.1 h
  have link : LinkOnTime (clearBlocks s) := ⟨notPast_none _, htx, hgap⟩
  unfold softReset
  refine timeLaw_announceReset ?_ 2
  exact timeLaw_cleared rfl rfl rfl (notPast_silenceExpiry s.safe.period s.now) link

theorem timeLaw_eventEffect {s u : State} (hs : PlanLaw s) (h : TimeLaw s) (e : EventEffect s u) : TimeLaw u := by
  obtain ⟨he, hstep, hsilence, hburst, hlink⟩ := timeLaw_iff.1 h
  cases e with
  | samplesSync l => exact timeLaw_pins h _
  | cycles hrun hf => exact timeLaw_begins h rfl rfl rfl (onTime_stampAtBoundary hburst _) id
  | firstCycle harm hm => exact timeLaw_begins h rfl rfl rfl hburst id
  | stops hrun => exact timeLaw_entersStopped h false
  | fires hf hh =>
    exact timeLaw_iff.2 ⟨he, stepInstant_passed (s := s) hs hf, hsilence, onTime_handedOff (s := s) hburst hh, hlink⟩
  | endsOn hd => exact timeLaw_setChan h (onTime_endOn _)
  | endsOff hd => exact timeLaw_setChan h (onTime_endOff _)
  | samplesLines levels hw =>
    have sampled := forall_mapRecords (Q' := Channel.OnTime s.now) hburst fun _ hc => onTime_sampled hc s.stamp levels
    exact timeLaw_pins (timeLaw_chans h sampled) _
  | movesLines levels hw => exact timeLaw_pins h _
  | confirms hd hc => exact timeLaw_setChan h (onTime_noBurst rfl _)
  | samplesNstop l => exact timeLaw_silence h hsilence
  | causes c hw => exact timeLaw_applyCause h c
  | silenceEnds hd => exact timeLaw_silence h (notPast_none _)
  | silenceRestarts => exact timeLaw_silence h (notPast_silenceExpiry _ _)
  | softReset hw => exact timeLaw_softReset h
  | resetBegins ht =>
    cases ht
    exact timeLaw_cleared rfl rfl rfl (notPast_none _) (linkOnTime_idle rfl rfl rfl)
  | resetEnds hw ht =>
    rw [exec_hardwareResetEnd hw] at ht
    cases ht
    refine timeLaw_cleared rfl rfl rfl (notPast_none _) (linkOnTime_idle ?_ rfl rfl)
    rfl

/-! ### The plan law beside it -/

theorem planView_handedOff {s : State} {p : SlotIx} {st : Step} {chans : ChannelTable} (e : HandedOff s p st chans) :
    ({ s with chans := chans } : State).planView = s.planView := by
  cases e with
  | unchanged => rfl
  | emitsLevel ha hc hs => exact planView_setChan (by rw [hc]; rfl)
  | emitsBurst ha hc hs => exact planView_setChan (by rw [hc]; rfl)
  | samples ha hc => exact planView_setChan (by rw [hc]; rfl)
  | opens ha hc => exact planView_setChan (by rw [hc]; rfl)
  | closes ha hc => exact planView_setChan (by rw [hc, Channel.kind_closeWindow])

theorem planLaw_handsOn {s : State} (h : PlansValid s) (hr : s.engine.state = .running) : PlanLaw s.handsOn :=
  planLaw_beginWalk h.afterSwap (by simp) hr

theorem planLaw_eventEffect {s u : State} (h : PlanLaw s) (e : EventEffect s u) : PlanLaw u := by
  cases e with
  | samplesSync l => exact h.congr rfl
  | cycles hrun hf => exact planLaw_handsOn (h.plansValid.congr rfl rfl (kind_stampAtBoundary _ _)) rfl
  | firstCycle harm hm => exact planLaw_handsOn (h.plansValid.congr rfl rfl fun _ => rfl) rfl
  | stops hrun => exact planLaw_entersStopped h.plansValid false
  | @fires p st chans hf hh =>
    obtain ⟨hpointer, id, start, htable, -, hst, -⟩ := stepAtPointer_filled hf.2
    obtain ⟨-, hactive, -⟩ := h.step_fits hpointer
    obtain rfl : id = s.plans.active := Option.some.inj (htable.symm.trans hactive)
    exact planLaw_passed h hpointer hst (planView_handedOff hh)
  | endsOn hd => exact h.congr (planView_setChan (Channel.kind_onBurst _ _))
  | endsOff hd => exact h.congr (planView_setChan (Channel.kind_onBurst _ _))
  | samplesLines levels hw => exact h.congr (planView_mapRecords (Channel.kind_sampled s.stamp levels) s)
  | movesLines levels hw => exact h.congr rfl
  | confirms hd hc => exact h.congr (planView_setChan (by rw [hc]; rfl))
  | samplesNstop l => exact h.congr rfl
  | causes c hw => exact h.congr (planView_applyCause c s)
  | silenceEnds hd => exact h.congr rfl
  | silenceRestarts => exact h.congr rfl
  | softReset hw => exact planLaw_softReset s
  | resetBegins ht =>
    obtain ⟨t, ht', hlaw⟩ := exec_answers_planLaw h _
    rw [ht] at ht'
    cases ht'
    exact hlaw
  | resetEnds hw ht =>
    obtain ⟨t, ht', hlaw⟩ := exec_answers_planLaw h _
    rw [ht] at ht'
    cases ht'
    exact hlaw

/-! ### The count of the time base -/

theorem notPast_succ {now : Nat} {a : Option Nat} (h : notPast now a) (hn : a ≠ some now) : notPast (now + 1) a := by
  rintro t ⟨⟩
  have hle := h t rfl
  have hne : t ≠ now := fun e => hn (by rw [e])
  omega

section NothingDue

variable {s : State} (hw : s.hwReset = none) (hd : dueEvents s = [])

include hd in
theorem not_mem_of_nothingDue (c : Instr) : c ∉ dueEvents s := by
  rw [hd]
  exact List.not_mem_nil

include hw hd

/-- A boundary at the present instant is due under one of the three names of its source (R34, R37, R38). -/
theorem nextBoundary_ne_now (he : s.engine.state = .running) : s.engine.nextBoundary ≠ some s.now := by
  intro hn
  have due : boundaryDue s = true := by simp [boundaryDue, hw, he, hn]
  cases hm : s.engine.mode with
  | free => exact not_mem_of_nothingDue hd .periodBoundary (by simp [mem_dueEvents, periodDue, due, hm])
  | sync =>
    cases hf : s.engine.flywheel with
    | false => exact not_mem_of_nothingDue hd .syncDeadline (by simp [mem_dueEvents, deadlineDue, due, hm, hf])
    | true => exact not_mem_of_nothingDue hd .flywheelBoundary (by simp [mem_dueEvents, flywheelDue, due, hm, hf])

theorem stepInstant_ne_now : s.stepInstant ≠ some s.now := by
  intro hn
  obtain ⟨p, st, hs⟩ := mem_stepInstant hn
  exact not_mem_of_nothingDue hd .stepFire (by simp [mem_dueEvents, stepDue, hw, hs])

theorem silenceTimer_ne_now : s.safe.timer ≠ some s.now := fun hn =>
  not_mem_of_nothingDue hd .silenceTimerExpiry (by simp [mem_dueEvents, silenceDue, hw, hn])

theorem retransmitTimer_ne_now : s.notices.timer ≠ some s.now := fun hn =>
  not_mem_of_nothingDue hd .retransmitTimerExpiry (by simp [mem_dueEvents, retransmitDue, hw, hn])

theorem frameEnd_ne_now : s.link.tx.map TxFrame.endsAt ≠ some s.now := by
  intro hn
  obtain ⟨x, hx, he⟩ := Option.map_eq_some_iff.1 hn
  cases hsource : x.source with
  | reply => exact not_mem_of_nothingDue hd .replySent (by simp [mem_dueEvents, frameDue, hw, hx, he, hsource])
  | notice => exact not_mem_of_nothingDue hd .noticeFrameSent (by simp [mem_dueEvents, frameDue, hw, hx, he, hsource])

theorem gapEnd_ne_now : s.link.rx.gapEnd ≠ some s.now := by
  intro hn
  cases hr : s.link.rx with
  | hunt => simp [hr, Receiver.gapEnd] at hn
  | within last part =>
    have hlast : last + Config.gapLimit = s.now := by simpa [hr, Receiver.gapEnd] using hn
    exact not_mem_of_nothingDue hd .gapLimit (by simp [mem_dueEvents, gapDue, hw, hr, hlast])

theorem phaseEnd_ne_now (ch : ChanIx) : (s.chan ch).burst?.map Burst.phaseEnd ≠ some s.now := by
  intro hn
  obtain ⟨b, hb, he⟩ := Option.map_eq_some_iff.1 hn
  cases hphase : b.phase with
  | on => exact not_mem_of_nothingDue hd (.burstOnPhaseEnd ch) (by simp [mem_dueEvents, phaseDue, hw, hb, he, hphase])
  | off => exact not_mem_of_nothingDue hd (.burstOffPhaseEnd ch) (by simp [mem_dueEvents, phaseDue, hw, hb, he, hphase])

/-- With nothing due, no appointment is of the present instant, and the time base may count (R27). -/
theorem timeLaw_counts (h : TimeLaw s) : TimeLaw { s with now := s.now + 1 } := by
  obtain ⟨⟨hrun, hnext⟩, hstep, hsilence, hburst, hretransmit, htx, hgap⟩ := timeLaw_iff.1 h
  have later : s.engine.nextBoundary ≠ some s.now := fun hn =>
    nextBoundary_ne_now hw hd (hrun (by rw [hn]; rfl)) hn
  exact timeLaw_iff.2 ⟨⟨hrun, notPast_succ hnext later⟩, notPast_succ hstep (stepInstant_ne_now hw hd),
    notPast_succ hsilence (silenceTimer_ne_now hw hd), fun ch => notPast_succ (hburst ch) (phaseEnd_ne_now hw hd ch),
    notPast_succ hretransmit (retransmitTimer_ne_now hw hd), notPast_succ htx (frameEnd_ne_now hw hd),
    notPast_succ hgap (gapEnd_ne_now hw hd)⟩

end NothingDue

theorem planLaw_timeLaw_survives : SurvivesSteps fun s => PlanLaw s ∧ TimeLaw s where
  moves h hm := ⟨planLaw_blockLaw h.1 hm.1, h.2.moves hm⟩
  requests kind body s h := by
    obtain ⟨u, he, hm⟩ := carryOf_effect kind body s
    have hlaw : PlanLaw (carryOf kind body s).1 := carryOf_keeps requestTable_keeps_planLaw kind body s h.1
    exact ⟨hlaw, (timeLaw_requestEffect h.1 (planLaw_blockLaw hlaw hm.1.symm) h.2 he).moves hm⟩
  events h he := ⟨planLaw_eventEffect h.1 he, timeLaw_eventEffect h.1 h.2 he⟩
  counts h hw hd := ⟨h.1.congr rfl, timeLaw_counts hw hd h.2⟩

/-- Settles O59: every effect of a request or an event keeps the law under the plan law, and time counts with nothing due. -/
theorem timeLawKept : Obligations.TimeLawKept := fun _ _ hp h hstep => (planLaw_timeLaw_survives.step ⟨hp, h⟩ hstep).2

end Sys2Proof.Machine
end

section
/-! PROOFS. The steps that fire (R50 to R56): the firing around a hand-off, said once, and for each kind of action the record it leaves
and the notices it raises. -/

namespace Sys2Proof.Machine

/-! ### Firing (R50, R51) -/

/-- The step at the walk pointer fires when the cycle time reaches its offset. -/
theorem exec_stepFire {p : SlotIx} {st : Step} {s : State} (hf : FiresNow p st s) : exec .stepFire s = fireStep p st s := by
  obtain ⟨hw, hs⟩ := hf
  show execStepFire s = _
  simp [execStepFire, hw, hs]

theorem hwReset_handOff {p : SlotIx} {st : Step} {s t : State} {rs : List Raised}
    (ho : handOff p st s.walkCycle s = some (t, rs)) : t.hwReset = s.hwReset := by
  obtain ⟨chans, -, hblocks, -⟩ := handOff_handedOff ho
  exact (congrArg State.hwReset hblocks :)

/-- A step that is handed off moves the walk on, and its notices join those of the steps of its offset. -/
theorem fires_handOff {p : SlotIx} {st : Step} {s t : State} {rs : List Raised} (hf : FiresNow p st s)
    (ho : handOff p st s.walkCycle s = some (t, rs)) :
    ∃ t', exec .stepFire s = .next t' ∧ FiredFrom { t with walk := t.walk.passed st } t' rs := by
  have hw : t.hwReset = none := (hwReset_handOff ho).trans hf.1
  refine ⟨_, ?_, firedFrom_settle rs (u := { t with walk := t.walk.passed st }) hw⟩
  rw [exec_stepFire hf]
  unfold fireStep
  rw [show s.walk.cycle.getD s.engine.cycle = s.walkCycle from rfl, ho]

/-- A hand-off that leaves the reply to a QUEUE_PUT as it is. -/
theorem fires_chans {p : SlotIx} {st : Step} {s : State} {chans : ChannelTable} {rs : List Raised} (hf : FiresNow p st s)
    (ho : handOff p st s.walkCycle s = some ({ s with chans := chans }, rs)) :
    ∃ t, exec .stepFire s = .next t ∧ FiredFrom (s.fired st chans) t rs :=
  fires_handOff hf ho

/-- Moving the walk on and reporting the fill touch different fields. -/
theorem reportFill_fired (ch : ChanIx) (n : Nat) (st : Step) (c : Channel) (s : State) :
    { reportFill ch n (s.setChan ch c) with walk := (reportFill ch n (s.setChan ch c)).walk.passed st }
      = reportFill ch n (s.fired st (s.setChan ch c).chans) := by
  by_cases hp : s.putAt = some (s.now, ch)
  · rw [reportFill_some (s := s.setChan ch c) hp, reportFill_some (s := s.fired st _) hp]
    rfl
  · rw [reportFill_none (s := s.setChan ch c) hp, reportFill_none (s := s.fired st _) hp]
    rfl

/-- A hand-off that also has the reply to a QUEUE_PUT report the fill. -/
theorem fires_reportFill {p : SlotIx} {st : Step} {s : State} {ch : ChanIx} {c : Channel} {n : Nat} {rs : List Raised}
    (hf : FiresNow p st s) (ho : handOff p st s.walkCycle s = some (reportFill ch n (s.setChan ch c), rs)) :
    ∃ t, exec .stepFire s = .next t ∧ FiredFrom (reportFill ch n (s.fired st (s.setChan ch c).chans)) t rs := by
  rw [← reportFill_fired]
  exact fires_handOff hf ho

/-! ### EMIT (R53, R98) -/

section Emit

variable {p : SlotIx} {st : Step} {ch : ChanIx} {s : State}

theorem handOff_emit (ha : st.action = .emit ch) (cycle : CycleNo) : handOff p st cycle s = handEmit ch p cycle s := by
  simp [handOff, ha]

/-- A suppressed EMIT moves the walk on and changes no channel. -/
theorem fires_emit_suppressed (hf : FiresNow p st s) (ha : st.action = .emit ch)
    (hk : (Action.emit ch).accepts (s.chan ch).kind = true) (hs : s.safe.safe = true) :
    ∃ t, exec .stepFire s = .next t ∧ FiredFrom (s.fired st s.chans) t [] :=
  fires_chans hf ((handOff_emit ha _).trans (handEmit_suppressed hk hs))

/-- An EMIT leaves the LEVEL_OUT channel as the Output Drivers answer it. -/
theorem fires_emit_level {c d : LevelChan} {rs : List Raised} (hf : FiresNow p st s) (ha : st.action = .emit ch)
    (hc : s.chan ch = .level c) (hs : s.safe.safe = false) (he : c.emit ch p s.walkCycle = (d, rs))
    {n : Nat} (hn : d.queue.length = n) :
    ∃ t, exec .stepFire s = .next t ∧
      FiredFrom (reportFill ch n (s.fired st (s.setChan ch (.level d)).chans)) t rs := by
  refine fires_reportFill hf ?_
  rw [handOff_emit ha, handEmit_level hc hs, he, hn]

/-- An EMIT leaves the BURST_OUT channel as the Output Drivers answer it. -/
theorem fires_emit_burst {c d : BurstChan} {rs : List Raised} (hf : FiresNow p st s) (ha : st.action = .emit ch)
    (hc : s.chan ch = .burst c) (hs : s.safe.safe = false) (he : c.emit s.now ch p s.walkCycle = (d, rs))
    {n : Nat} (hn : d.queue.length = n) :
    ∃ t, exec .stepFire s = .next t ∧
      FiredFrom (reportFill ch n (s.fired st (s.setChan ch (.burst d)).chans)) t rs := by
  refine fires_reportFill hf ?_
  rw [handOff_emit ha, handEmit_burst hc hs, he, hn]

end Emit

/-- The lines of a starving EMIT (R90). -/
theorem StarvePolicy.value_eq (policy : StarvePolicy) (held idle : LineValue) :
    policy.value held idle = if policy = .idle then idle else held := by
  cases policy <;> rfl

/-- A count that stops at a limit. -/
theorem satSucc_eq_min (limit n : Nat) : satSucc limit n = min (n + 1) (max n limit) := by
  unfold satSucc
  split <;> omega

/-- The oldest record is driven (R89, R97). -/
theorem LevelChan.emit_pop {c : LevelChan} {v : LineValue} {q : List LineValue} (hq : c.queue = v :: q) (ch : ChanIx) (p : SlotIx)
    (cycle : CycleNo) :
    c.emit ch p cycle
      = ({ c with queue := q, value := v, state := .driving }, judgeLowWater ch c.cfg.mark q.length cycle) := by
  simp [LevelChan.emit, hq]

/-- An empty queue starves the channel (R90, R91). -/
theorem LevelChan.emit_starve {c : LevelChan} (hq : c.queue = []) (ch : ChanIx) (p : SlotIx) (cycle : CycleNo) :
    c.emit ch p cycle
      = ({ c with value := if c.cfg.starve = .idle then c.cfg.idle else c.value, state := .starved },
          judgeStarved ch p c.state cycle) := by
  rw [← StarvePolicy.value_eq]
  simp [LevelChan.emit, hq]

/-- A burst in flight makes the EMIT a skip (R96). -/
theorem BurstChan.emit_skip {c : BurstChan} (hb : c.burst.isSome = true) (now : Nat) (ch : ChanIx) (p : SlotIx) (cycle : CycleNo) :
    c.emit now ch p cycle
      = ({ c with skips := min (c.skips + 1) (max c.skips 65535) }, [channelNotice .skipped ch p.val cycle]) := by
  obtain ⟨b, hb⟩ := Option.isSome_iff_exists.1 hb
  rw [← satSucc_eq_min]
  simp [BurstChan.emit, hb]

/-- The oldest record's burst starts (R92, R93, R97). -/
theorem BurstChan.emit_start {c : BurstChan} {r : BurstRec} {q : List BurstRec} (hb : c.burst = none) (hq : c.queue = r :: q)
    (now : Nat) (ch : ChanIx) (p : SlotIx) (cycle : CycleNo) :
    c.emit now ch p cycle
      = ({ c with queue := q, value := r.active, state := .driving, burst := some (r.begin now) },
          judgeLowWater ch c.cfg.mark q.length cycle) := by
  simp [BurstChan.emit, hb, hq]

/-- With no burst and no record the channel starves (R90 to R92). -/
theorem BurstChan.emit_starve {c : BurstChan} (hb : c.burst = none) (hq : c.queue = []) (now : Nat) (ch : ChanIx) (p : SlotIx)
    (cycle : CycleNo) :
    c.emit now ch p cycle
      = ({ c with value := if c.cfg.starve = .idle then c.cfg.idle else c.value, state := .starved },
          judgeStarved ch p c.state cycle) := by
  rw [← StarvePolicy.value_eq]
  simp [BurstChan.emit, hb, hq]

/-! ### The fill in the reply to a QUEUE_PUT of the instant (R88, log 16) -/

section Reply

variable {ch : ChanIx} {u : State} {f : Frame} {seq kind status taken old : Byte}

/-- A reply that has left the slot changes in the cache alone. -/
theorem reportFill_emptySlot (hp : u.putAt = some (u.now, ch)) (hl : u.link.last = some (f, ⟨seq, kind, [status, taken, old]⟩))
    (hs : u.disp.slot = .empty) (fill : Nat) :
    reportFill ch fill u
      = { u with link := { u.link with last := some (f, ⟨seq, kind, [status, taken, byteOf fill]⟩) } } := by
  have kept : ({ u.disp with slot := .empty } : Dispatcher) = u.disp := by rw [← hs]
  rw [reportFill_some hp, hl, hs]
  exact congrArg (fun disp => { u with
    disp := disp
    link := { u.link with last := some (f, ⟨seq, kind, [status, taken, byteOf fill]⟩) } }) kept

/-- A reply that waits changes in the slot and in the cache. -/
theorem reportFill_waiting (hp : u.putAt = some (u.now, ch)) (hl : u.link.last = some (f, ⟨seq, kind, [status, taken, old]⟩))
    (hs : u.disp.slot = .waiting ⟨seq, kind, [status, taken, old]⟩) (fill : Nat) :
    reportFill ch fill u
      = { u with
          link := { u.link with last := some (f, ⟨seq, kind, [status, taken, byteOf fill]⟩) }
          disp := { u.disp with slot := .waiting ⟨seq, kind, [status, taken, byteOf fill]⟩ } } := by
  rw [reportFill_some hp, hl, hs]
  rfl

/-- A reply in transmission changes on TXD too. -/
theorem reportFill_inTransmission (hp : u.putAt = some (u.now, ch))
    (hl : u.link.last = some (f, ⟨seq, kind, [status, taken, old]⟩))
    (hs : u.disp.slot = .inTransmission ⟨seq, kind, [status, taken, old]⟩) {x : TxFrame} (hx : u.link.tx = some x) (fill : Nat) :
    reportFill ch fill u
      = { u with
          link := { u.link with
            last := some (f, ⟨seq, kind, [status, taken, byteOf fill]⟩)
            tx := some { x with bytes := Frame.bytes ⟨seq, kind, [status, taken, byteOf fill]⟩ } }
          disp := { u.disp with slot := .inTransmission ⟨seq, kind, [status, taken, byteOf fill]⟩ } } := by
  rw [reportFill_some hp, hl, hs, hx]
  rfl

end Reply

/-- Settles O22: SAFE, and otherwise whether the queue holds a record, decide the EMIT; `reportFill` is then told by where the reply
is. -/
theorem emitOnLevelChannel : Obligations.EmitOnLevelChannel := by
  refine ⟨fun p st ch c s hf ha hc => ⟨fun hs => ?_, fun hs => ⟨fun v q hq => ?_, fun hq => ?_⟩⟩,
    fun ch fill u => ⟨fun hp => reportFill_none hp fill, ?_⟩⟩
  · exact fires_emit_suppressed hf ha (hc ▸ rfl) hs
  · exact fires_emit_level hf ha hc hs (LevelChan.emit_pop hq ch p s.walkCycle) rfl
  · exact fires_emit_level hf ha hc hs (LevelChan.emit_starve hq ch p s.walkCycle) (congrArg List.length hq)
  · intro f seq kind status taken old hp was is hl
    exact ⟨fun hs => reportFill_emptySlot hp hl hs fill, fun hs => reportFill_waiting hp hl hs fill,
      fun x hs hx => reportFill_inTransmission hp hl hs hx fill⟩

/-- Settles O23: SAFE, then the burst in flight, then the queue decide the EMIT (R92). -/
theorem emitOnBurstChannel : Obligations.EmitOnBurstChannel := by
  intro p st ch c s hf ha hc
  refine ⟨fun hs => ?_, fun hs hb => ?_, fun r q hs hb hq => ?_, fun hs hb hq => ?_⟩
  · exact fires_emit_suppressed hf ha (hc ▸ rfl) hs
  · exact fires_emit_burst hf ha hc hs (BurstChan.emit_skip hb s.now ch p s.walkCycle) rfl
  · exact fires_emit_burst hf ha hc hs (BurstChan.emit_start hb hq s.now ch p s.walkCycle) rfl
  · exact fires_emit_burst hf ha hc hs (BurstChan.emit_starve hb hq s.now ch p s.walkCycle) (congrArg List.length hq)

/-! ### SAMPLE (R54, R109 to R112) -/

theorem joinQueue_room {α : Type} {depth : Nat} {q : List α} (h : q.length < depth) (policy : FullPolicy) (r : α) :
    joinQueue depth policy q r = (q ++ [r], false) := if_pos h

theorem joinQueue_full {α : Type} {depth : Nat} {q : List α} (h : depth ≤ q.length) (policy : FullPolicy) (r : α) :
    joinQueue depth policy q r = (if policy = .keepOld then q else q.tail ++ [r], true) := by
  unfold joinQueue
  rw [if_neg (Nat.not_lt.2 h)]
  cases policy <;> rfl

/-- Below the depth the record joins the queue, judged against the high-water mark (R109, R111). -/
theorem SampleChan.append_room {c : SampleChan} (h : c.queue.length < c.cfg.depth) (ch : ChanIx) (r : SampleRec) :
    c.append ch r
      = ({ c with queue := c.queue ++ [r] },
          if c.queue.length + 1 = c.cfg.mark then [channelNotice .data ch (c.queue.length + 1) r.cycle] else []) := by
  simp [SampleChan.append, joinQueue_room h, lostAfter, appendNotice]

/-- At the depth one record is lost, the new or the oldest (R110). -/
theorem SampleChan.append_full {c : SampleChan} (h : c.cfg.depth ≤ c.queue.length) (ch : ChanIx) (r : SampleRec) :
    c.append ch r
      = ({ c with
            queue := if c.cfg.full = .keepOld then c.queue else c.queue.tail ++ [r]
            lost := min (c.lost + 1) (max c.lost 65535) },
          [channelNotice .lost ch (min (c.lost + 1) (max c.lost 65535)) r.cycle]) := by
  rw [← satSucc_eq_min]
  simp [SampleChan.append, joinQueue_full h, lostAfter, appendNotice]

/-- A SAMPLE leaves the channel with its record appended. -/
theorem fires_sample {p : SlotIx} {st : Step} {ch : ChanIx} {c d : SampleChan} {s : State} {rs : List Raised} (hf : FiresNow p st s)
    (ha : st.action = .sample ch) (hc : s.chan ch = .sample c)
    (he : c.append ch ⟨s.walkCycle, p, c.cfg.run.read s.pins.lines⟩ = (d, rs)) :
    ∃ t, exec .stepFire s = .next t ∧ FiredFrom (s.fired st (s.setChan ch (.sample d)).chans) t rs := by
  refine fires_chans hf ?_
  rw [handOff, ha]
  dsimp only
  rw [handSample_sample hc, he]
  rfl

/-- Settles O24: the fill against the depth decides what becomes of the record. -/
theorem sampleFires : Obligations.SampleFires := by
  intro p st ch c s hf ha hc r lost
  refine ⟨fun hroom => ?_, fun hfull => ?_⟩
  · exact fires_sample hf ha hc (SampleChan.append_room hroom ch r)
  · exact fires_sample hf ha hc (SampleChan.append_full hfull ch r)

/-! ### OPEN, CLOSE and MARK (R55, R56, R113 to R115) -/

section Window

variable {p : SlotIx} {st : Step} {ch : ChanIx} {c : EdgeChan} {s : State}

theorem EdgeChan.openWindow_eq (lines : BitVec 32) (c : EdgeChan) :
    c.openWindow lines = if c.window = .opened then c else { c with window := .opened, settled := c.cfg.run.read lines } := by
  unfold EdgeChan.openWindow
  cases hw : c.window <;> simp

theorem fires_open (hf : FiresNow p st s) (ha : st.action = .openWindow ch) (hc : s.chan ch = .edge c) :
    ∃ t, exec .stepFire s = .next t ∧ FiredFrom (s.fired st (s.setChan ch (.edge (c.openWindow s.pins.lines))).chans) t [] := by
  refine fires_chans hf ?_
  rw [handOff, ha]
  exact handOpen_edge hc

theorem fires_close (hf : FiresNow p st s) (ha : st.action = .closeWindow ch) (hc : s.chan ch = .edge c) :
    ∃ t, exec .stepFire s = .next t ∧ FiredFrom (s.fired st (s.setChan ch (Channel.edge c).closeWindow).chans) t [] := by
  refine fires_chans hf ?_
  rw [handOff, ha]
  exact handClose_edge hc

theorem fires_mark (hf : FiresNow p st s) (ha : st.action = .mark) :
    ∃ t, exec .stepFire s = .next t ∧
      FiredFrom (s.fired st s.chans) t [{ kind := .mark, subject := some st.tag, detail := p.val, cycle := s.walkCycle }] := by
  refine fires_chans hf ?_
  rw [handOff, ha]

end Window

/-- Settles O25, one clause for each action. -/
theorem windowAndMarkStepsFire : Obligations.WindowAndMarkStepsFire := by
  intro p st s hf
  refine ⟨fun ch c hc ha => ?_, fun ch c hc ha => ?_, fun ha => fires_mark hf ha⟩
  · rw [← EdgeChan.openWindow_eq]
    exact fires_open hf ha hc
  · have h := fires_close hf ha hc
    rw [closeWindow_edge] at h
    exact h

end Sys2Proof.Machine
end

section
/-! PROOFS. The lines and the places that channels claim (R65, R67, R72, R73, R76): what ending and installing a configuration makes of
the channel table, and what drives a field line (R66). -/

namespace Sys2Proof.Machine

/-! ### A record replaced -/

theorem replace_records_self (ch : ChanIx) (c : Channel) (t : ChannelTable) : (t.replace ch c).records.get ch = c := by
  show (t.records.set ch.val c ch.isLt)[ch.val] = c
  simp

theorem replace_records_other {ch other : ChanIx} (h : other ≠ ch) (c : Channel) (t : ChannelTable) :
    (t.replace ch c).records.get other = t.records.get other := by
  have hne : ch.val ≠ other.val := fun e => h (Fin.ext e.symm)
  show (t.records.set ch.val c ch.isLt)[other.val] = t.records[other.val]
  simp [hne]

theorem replace_lineMap_get (ch : ChanIx) (c : Channel) (t : ChannelTable) (n : Fin 32) :
    (t.replace ch c).lineMap.get n =
      if c.ownsLine n = true then some ch else if t.lineMap.get n = some ch then none else t.lineMap.get n := by
  show (claimLines ch c.run? t.lineMap)[n.val] = _
  rw [claimLines, Vector.getElem_ofFn]
  rfl

/-! ### The line a request finds taken -/

/-- No line of a run is taken when none of them belongs to another channel (R70). -/
theorem takenLine_none_iff {ch : ChanIx} {r : Run} {m : Vector (Option ChanIx) 32} :
    takenLine ch r m = none ↔ ∀ (n : Fin 32) (o : ChanIx), r.covers n.val = true → m.get n = some o → o = ch := by
  unfold takenLine
  rw [List.findSome?_eq_none_iff]
  refine forall_congr' fun n => ?_
  cases m.get n <;> simp [List.mem_finRange]

theorem takenLine_none_of_free {ch : ChanIx} {r : Run} {m : Vector (Option ChanIx) 32}
    (h : ∀ n : Fin 32, r.covers n.val = true → m.get n = none ∨ m.get n = some ch) : takenLine ch r m = none := by
  refine takenLine_none_iff.2 fun n o hr hn => ?_
  obtain hfree | hown := h n hr
  · cases hn.symm.trans hfree
  · exact Option.some.inj (hn.symm.trans hown)

/-- The line reported is the lowest that another channel owns (R71). -/
theorem takenLine_lowest {ch o : ChanIx} {r : Run} {m : Vector (Option ChanIx) 32} {n : Fin 32} (hr : r.covers n.val = true)
    (hn : m.get n = some o) (ho : o ≠ ch)
    (hlow : ∀ k : Fin 32, k < n → r.covers k.val = true → m.get k = none ∨ m.get k = some ch) :
    takenLine ch r m = some (n, o) := by
  unfold takenLine
  rw [List.findSome?_eq_some_iff]
  refine ⟨(List.finRange 32).take n.val, n, (List.finRange 32).drop (n.val + 1), ?_, ?_, fun k hk => ?_⟩
  · have hlen : n.val < (List.finRange 32).length := by simp
    have hsplit := List.drop_eq_getElem_cons hlen
    rw [List.getElem_finRange] at hsplit
    exact (List.take_append_drop n.val (List.finRange 32)).symm.trans (congrArg _ hsplit)
  · simp [hn, hr, ho]
  · obtain ⟨j, hj, rfl⟩ := List.mem_take_iff_getElem.1 hk
    have hlt : (List.finRange 32)[j] < n := by
      rw [List.getElem_finRange]
      exact Fin.lt_def.2 (by simpa using (Nat.lt_min.1 hj).1)
    generalize (List.finRange 32)[j] = k at hlt
    cases hc : r.covers k.val with
    | false => cases m.get k <;> simp
    | true => obtain h | h := hlow k hlt hc <;> simp [h]

/-! ### What a configuration installs -/

/-- The settled levels of a run, line by line (R112). -/
theorem Run.read_getLsbD (r : Run) (lines : BitVec 32) (i : Fin 8) :
    (r.read lines).getLsbD i.val = (decide (i.val < r.width) && lines.getLsbD (8 * r.port.val + r.first.val + i.val)) := by
  have mask : (widthMask r.width).getLsbD i.val = decide (i.val < r.width) := by
    rw [widthMask, byteOf, BitVec.getLsbD_ofNat, Nat.testBit_two_pow_sub_one]
    simp
  rw [Run.read, maskTo, BitVec.getLsbD_and, mask]
  simp [Run.base, Bool.and_comm]

/-! ### What drives a line -/

section Drive

variable {s : State} {n : Fin 32}

theorem lineDrive_unowned (h : s.chans.lineMap.get n = none) : lineDrive s n = none := by
  simp only [lineDrive, h]

/-- A line shows its bit of the value that its owner puts out (R66). -/
theorem lineDrive_driven {ch : ChanIx} {v : LineValue} {r : Run} (h : s.chans.lineMap.get n = some ch)
    (hv : (s.chan ch).outValue = some v) (hr : (s.chan ch).run? = some r) :
    lineDrive s n = some (if v.getLsbD (n.val - r.base) then .high else .low) := by
  simp only [lineDrive, h, hv, hr]

/-- A line whose owner puts nothing out floats (R66). -/
theorem lineDrive_input {ch : ChanIx} (h : s.chans.lineMap.get n = some ch) (hv : (s.chan ch).outValue = none) :
    lineDrive s n = none := by
  simp only [lineDrive, h, hv]

end Drive

/-- Settles O29, one part each for the channel table, the records installed and the lines. -/
theorem installAndReplace : Obligations.InstallAndReplace := by
  refine ⟨fun ch c t => ?_, fun safe lines => ?_, fun s n => ?_⟩
  · exact ⟨replace_records_self ch c t, fun other h => replace_records_other h c t, replace_lineMap_get ch c t, rfl⟩
  · refine ⟨fun c => rfl, fun c => rfl, fun c => rfl, fun c select debounce => ?_⟩
    exact ⟨c.run.read lines, rfl, fun _ i => c.run.read_getLsbD lines i⟩
  · refine ⟨lineDrive_unowned, fun ch h => ⟨fun c hc => ?_, fun c hc => ?_, fun c hc => ?_, fun c hc => ?_⟩⟩
    · exact lineDrive_driven h (by rw [hc]; rfl) (by rw [hc]; rfl)
    · exact lineDrive_driven h (by rw [hc]; rfl) (by rw [hc]; rfl)
    · exact lineDrive_input h (by rw [hc]; rfl)
    · exact lineDrive_input h (by rw [hc]; rfl)

end Sys2Proof.Machine
end

section
/-! PROOFS. The channel requests (chapter 4): reading the fields of a CHAN_SET body, and what CHAN_SET, CHAN_RELEASE, QUEUE_FLUSH and
CHAN_READ answer. -/

namespace Sys2Proof.Machine

/-! ### Fields of a CHAN_SET body (R63, R70) -/

theorem natAt_of_ixByte {body : List Byte} {i n : Nat} {k : Fin n} (hn : n ≤ 256) (h : byteAt body i = ixByte k) :
    natAt body i = k.val := by
  rw [natAt, h, ixByte_toNat hn]

theorem natAt_of_byteOf {body : List Byte} {i n : Nat} (hn : n ≤ 255) (h : byteAt body i = byteOf n) : natAt body i = n := by
  rw [natAt, h, byteOf_toNat, Nat.mod_eq_of_lt (by omega)]

theorem starveOf_code (p : StarvePolicy) : starveOf p.code.toNat = some p := by cases p <;> rfl

theorem fullOf_code (p : FullPolicy) : fullOf p.code.toNat = some p := by cases p <;> rfl

theorem edgeSelectOf_code (e : EdgeSelect) : edgeSelectOf e.code.toNat = some e := by cases e <;> rfl

theorem starveOf_le {n : Nat} {p : StarvePolicy} (h : starveOf n = some p) : n ≤ 1 := by
  by_contra hn
  rw [starveOf, if_neg (by omega), if_neg (by omega)] at h
  cases h

theorem fullOf_le {n : Nat} {p : FullPolicy} (h : fullOf n = some p) : n ≤ 1 := by
  by_contra hn
  rw [fullOf, if_neg (by omega), if_neg (by omega)] at h
  cases h

theorem edgeSelectOf_le {n : Nat} {e : EdgeSelect} (h : edgeSelectOf n = some e) : n ≤ 2 := by
  by_contra hn
  rw [edgeSelectOf, if_neg (by omega), if_neg (by omega), if_neg (by omega)] at h
  cases h

theorem Run.fits_iff {r : Run} : r.fits = true ↔ 1 ≤ r.width ∧ r.first.val + r.width ≤ 8 := by simp [Run.fits]

theorem depthFits_iff {depth : Nat} : depthFits depth = true ↔ 4 ≤ depth ∧ depth ≤ 128 := by simp [depthFits]

theorem OutConfig.fits_iff {c : OutConfig} :
    c.fits = true ↔ c.run.fits = true ∧ depthFits c.depth = true ∧ c.mark ≤ c.depth - 1 ∧ c.idle.toNat ≤ 2 ^ c.run.width - 1 ∧
      c.safe.toNat ≤ 2 ^ c.run.width - 1 := by
  simp [OutConfig.fits, and_assoc]

theorem InConfig.fits_iff {c : InConfig} :
    c.fits = true ↔ c.run.fits = true ∧ depthFits c.depth = true ∧ 1 ≤ c.mark ∧ c.mark ≤ c.depth := by
  simp [InConfig.fits, and_assoc]

/-- The run asked for is read, or one of its fields is out of range. -/
theorem runOf_cases (body : List Byte) :
    (∃ r : Run, runOf body = some r ∧ r.fits = true ∧ natAt body 2 = r.port.val ∧ natAt body 3 = r.first.val ∧
      natAt body 4 = r.width) ∨
    (runOf body = none ∧ ¬ (natAt body 2 < 4 ∧ natAt body 3 < 8 ∧ 1 ≤ natAt body 4 ∧ natAt body 3 + natAt body 4 ≤ 8)) := by
  unfold runOf
  dsimp only
  split
  · next h =>
    split
    · next hw => exact .inl ⟨_, rfl, Run.fits_iff.2 ⟨hw.1, hw.2.2⟩, rfl, rfl, rfl⟩
    · next hw => exact .inr ⟨rfl, fun hin => hw ⟨hin.2.2.1, by omega, hin.2.2.2⟩⟩
  · next h => exact .inr ⟨rfl, fun hin => h ⟨hin.1, hin.2.1⟩⟩

theorem runOf_run {body : List Byte} {r : Run} (h : r.fits = true) (hp : byteAt body 2 = ixByte r.port)
    (hf : byteAt body 3 = ixByte r.first) (hw : byteAt body 4 = byteOf r.width) : runOf body = some r := by
  obtain ⟨hmin, hmax⟩ := Run.fits_iff.1 h
  have hport : natAt body 2 = r.port.val := natAt_of_ixByte (by omega) hp
  have hfirst : natAt body 3 = r.first.val := natAt_of_ixByte (by omega) hf
  have hwidth : natAt body 4 = r.width := natAt_of_byteOf (by omega) hw
  obtain ⟨⟨p, f, w⟩, hr, -, hp', hf', hw'⟩ | ⟨-, hout⟩ := runOf_cases body
  · rw [hr]
    obtain rfl : p = r.port := Fin.ext (hp'.symm.trans hport)
    obtain rfl : f = r.first := Fin.ext (hf'.symm.trans hfirst)
    obtain rfl : w = r.width := hw'.symm.trans hwidth
    rfl
  · omega

section Config

variable {run : Run} {depth : Nat} {body : List Byte}

theorem outConfigOf_config {c : OutConfig} (h : c.fits = true) (hm : byteAt body 6 = byteOf c.mark) (hi : byteAt body 7 = c.idle)
    (hs : byteAt body 8 = c.safe) (hp : byteAt body 9 = c.starve.code) : outConfigOf c.run c.depth body = some c := by
  obtain ⟨-, hd, hmark, hidle, hsafe⟩ := OutConfig.fits_iff.1 h
  obtain ⟨-, hmax⟩ := depthFits_iff.1 hd
  have hmark' : natAt body 6 = c.mark := natAt_of_byteOf (by omega) hm
  have hstarve : starveOf (natAt body 9) = some c.starve := by rw [natAt, hp, starveOf_code]
  have hidle' : natAt body 7 = c.idle.toNat := by rw [natAt, hi]
  have hsafe' : natAt body 8 = c.safe.toNat := by rw [natAt, hs]
  simp only [outConfigOf, hstarve, hmark', hidle', hsafe', hi, hs]
  exact if_pos ⟨hmark, hidle, hsafe⟩

theorem inConfigOf_config {c : InConfig} (h : c.fits = true) (hm : byteAt body 6 = byteOf c.mark)
    (hp : byteAt body 10 = c.full.code) : inConfigOf c.run c.depth body = some c := by
  obtain ⟨-, hd, hmark⟩ := InConfig.fits_iff.1 h
  obtain ⟨-, hmax⟩ := depthFits_iff.1 hd
  have hmark' : natAt body 6 = c.mark := natAt_of_byteOf (by omega) hm
  have hfull : fullOf (natAt body 10) = some c.full := by rw [natAt, hp, fullOf_code]
  simp only [inConfigOf, hfull, hmark']
  exact if_pos hmark

/-- An output configuration is read from fields in their ranges (R63). -/
theorem outConfigOf_some {c : OutConfig} (h : outConfigOf run depth body = some c) (hr : run.fits = true)
    (hd : depthFits depth = true) :
    c.fits = true ∧ natAt body 6 ≤ depth - 1 ∧ natAt body 7 ≤ 2 ^ run.width - 1 ∧ natAt body 8 ≤ 2 ^ run.width - 1 ∧
      natAt body 9 ≤ 1 := by
  unfold outConfigOf at h
  split at h
  · cases h
  · next hs =>
    split at h
    · next hin =>
      cases h
      exact ⟨OutConfig.fits_iff.2 ⟨hr, hd, hin⟩, hin.1, hin.2.1, hin.2.2, starveOf_le hs⟩
    · cases h

/-- An input configuration is read from fields in their ranges (R63). -/
theorem inConfigOf_some {c : InConfig} (h : inConfigOf run depth body = some c) (hr : run.fits = true)
    (hd : depthFits depth = true) : c.fits = true ∧ 1 ≤ natAt body 6 ∧ natAt body 6 ≤ depth ∧ natAt body 10 ≤ 1 := by
  unfold inConfigOf at h
  split at h
  · cases h
  · next hs =>
    split at h
    · next hin =>
      cases h
      exact ⟨InConfig.fits_iff.2 ⟨hr, hd, hin⟩, hin.1, hin.2, fullOf_le hs⟩
    · cases h

/-- The last of the range checks: the fields that the kind holds, with the run and the depth in range. -/
def kindSetup (run : Run) (depth : Nat) (body : List Byte) : Nat → Option Setup
  | 1 => (outConfigOf run depth body).map .level
  | 2 => (outConfigOf run depth body).map .burst
  | 3 => (inConfigOf run depth body).map .sample
  | 4 =>
    match inConfigOf run depth body, edgeSelectOf (natAt body 11) with
    | some cfg, some select => some (.edge cfg select (natAt body 12))
    | _, _ => none
  | _ => none

theorem kindSetup_some {kind : Nat} {setup : Setup} (h : kindSetup run depth body kind = some setup) :
    (kind = 1 ∧ ∃ c, outConfigOf run depth body = some c ∧ setup = .level c) ∨
    (kind = 2 ∧ ∃ c, outConfigOf run depth body = some c ∧ setup = .burst c) ∨
    (kind = 3 ∧ ∃ c, inConfigOf run depth body = some c ∧ setup = .sample c) ∨
    (kind = 4 ∧ ∃ c select, inConfigOf run depth body = some c ∧ edgeSelectOf (natAt body 11) = some select ∧
      setup = .edge c select (natAt body 12)) := by
  unfold kindSetup at h
  split at h
  · obtain ⟨c, hc, rfl⟩ := Option.map_eq_some_iff.1 h
    exact .inl ⟨rfl, c, hc, rfl⟩
  · obtain ⟨c, hc, rfl⟩ := Option.map_eq_some_iff.1 h
    exact .inr (.inl ⟨rfl, c, hc, rfl⟩)
  · obtain ⟨c, hc, rfl⟩ := Option.map_eq_some_iff.1 h
    exact .inr (.inr (.inl ⟨rfl, c, hc, rfl⟩))
  · split at h
    · next c select hc hs =>
      cases h
      exact .inr (.inr (.inr ⟨rfl, c, select, hc, hs, rfl⟩))
    · cases h
  · cases h

theorem setupOf_run (hr : runOf body = some run) :
    setupOf body = if depthFits (natAt body 5) = true then kindSetup run (natAt body 5) body (natAt body 1) else none := by
  have hrange : natAt body 5 < Config.depthMin ∨ Config.depthMax < natAt body 5 ↔ ¬ depthFits (natAt body 5) = true := by
    rw [depthFits_iff, not_and_or, Nat.not_le, Nat.not_le]
  simp only [setupOf, hr, hrange, ite_not]
  rfl

/-- What is read from a body has its run and its depth in range, and the fields of its kind. -/
theorem setupOf_some {setup : Setup} (h : setupOf body = some setup) :
    ∃ run : Run, run.fits = true ∧ natAt body 2 = run.port.val ∧ natAt body 3 = run.first.val ∧ natAt body 4 = run.width ∧
      depthFits (natAt body 5) = true ∧ kindSetup run (natAt body 5) body (natAt body 1) = some setup := by
  obtain ⟨run, hr, hfits, hp, hf, hw⟩ | ⟨hr, -⟩ := runOf_cases body
  · rw [setupOf_run hr] at h
    split at h
    · next hd => exact ⟨run, hfits, hp, hf, hw, hd, h⟩
    · cases h
  · simp [setupOf, hr] at h

/-- A configuration that passes the range checks has its fields in range (R70). -/
theorem setup_fits_of_setupOf {setup : Setup} (h : setupOf body = some setup) : setup.fits = true := by
  obtain ⟨run, hr, -, -, -, hd, hk⟩ := setupOf_some h
  obtain ⟨-, c, hc, rfl⟩ | ⟨-, c, hc, rfl⟩ | ⟨-, c, hc, rfl⟩ | ⟨-, c, select, hc, -, rfl⟩ := kindSetup_some hk
  · exact (outConfigOf_some hc hr hd).1
  · exact (outConfigOf_some hc hr hd).1
  · exact (inConfigOf_some hc hr hd).1
  · simp [Setup.fits, (inConfigOf_some hc hr hd).1, natAt_le]

/-- The fields of a body that is read lie in the ranges of their kind (R63). -/
theorem setupOf_range {setup : Setup} (h : setupOf body = some setup) :
    (1 ≤ natAt body 1 ∧ natAt body 1 ≤ 4) ∧ natAt body 2 ≤ 3 ∧ natAt body 3 ≤ 7 ∧ 1 ≤ natAt body 4 ∧
      natAt body 3 + natAt body 4 ≤ 8 ∧ 4 ≤ natAt body 5 ∧ natAt body 5 ≤ 128 ∧
      (natAt body 1 ≤ 2 → natAt body 6 ≤ natAt body 5 - 1 ∧ natAt body 7 ≤ 2 ^ natAt body 4 - 1 ∧
        natAt body 8 ≤ 2 ^ natAt body 4 - 1 ∧ natAt body 9 ≤ 1) ∧
      (3 ≤ natAt body 1 → 1 ≤ natAt body 6 ∧ natAt body 6 ≤ natAt body 5 ∧ natAt body 10 ≤ 1) ∧
      (natAt body 1 = 4 → natAt body 11 ≤ 2) := by
  obtain ⟨run, hr, hport, hfirst, hwidth, hd, hk⟩ := setupOf_some h
  obtain ⟨hwmin, hwmax⟩ := Run.fits_iff.1 hr
  obtain ⟨hdmin, hdmax⟩ := depthFits_iff.1 hd
  rw [hwidth, hport, hfirst]
  refine ⟨?_, by omega, by omega, hwmin, hwmax, hdmin, hdmax, ?_⟩
  · obtain ⟨h, -⟩ | ⟨h, -⟩ | ⟨h, -⟩ | ⟨h, -⟩ := kindSetup_some hk <;> omega
  · obtain ⟨hkind, c, hc, -⟩ | ⟨hkind, c, hc, -⟩ | ⟨hkind, c, hc, -⟩ | ⟨hkind, c, select, hc, hs, -⟩ := kindSetup_some hk
    · exact ⟨fun _ => (outConfigOf_some hc hr hd).2, by omega, by omega⟩
    · exact ⟨fun _ => (outConfigOf_some hc hr hd).2, by omega, by omega⟩
    · exact ⟨by omega, fun _ => (inConfigOf_some hc hr hd).2, by omega⟩
    · exact ⟨by omega, fun _ => (inConfigOf_some hc hr hd).2, fun _ => edgeSelectOf_le hs⟩

end Config

/-- A configuration in range reads back from its body, whatever fills the fields its kind does not hold (R70). -/
theorem setupOf_setupBody (ch : ChanIx) (x y z : Byte) {setup : Setup} (h : setup.fits = true) :
    setupOf (setupBody ch x y z setup) = some setup := by
  have depthOf : ∀ {depth : Nat} {body : List Byte}, depthFits depth = true → byteAt body 5 = byteOf depth →
      natAt body 5 = depth := fun hd hb => natAt_of_byteOf (by have := depthFits_iff.1 hd; omega) hb
  cases setup with
  | level c =>
    obtain ⟨hr, hd, -⟩ := OutConfig.fits_iff.1 h
    rw [setupOf_run (runOf_run hr rfl rfl rfl), depthOf hd rfl, if_pos hd]
    exact congrArg (Option.map _) (outConfigOf_config h rfl rfl rfl rfl)
  | burst c =>
    obtain ⟨hr, hd, -⟩ := OutConfig.fits_iff.1 h
    rw [setupOf_run (runOf_run hr rfl rfl rfl), depthOf hd rfl, if_pos hd]
    exact congrArg (Option.map _) (outConfigOf_config h rfl rfl rfl rfl)
  | sample c =>
    obtain ⟨hr, hd, -⟩ := InConfig.fits_iff.1 h
    rw [setupOf_run (runOf_run hr rfl rfl rfl), depthOf hd rfl, if_pos hd]
    exact congrArg (Option.map _) (inConfigOf_config h rfl rfl)
  | edge c select debounce =>
    obtain ⟨hc, hdeb⟩ := Bool.and_eq_true_iff.1 h
    obtain ⟨hr, hd, -⟩ := InConfig.fits_iff.1 hc
    rw [setupOf_run (runOf_run hr rfl rfl rfl), depthOf hd rfl, if_pos hd]
    have hconfig : inConfigOf c.run c.depth (setupBody ch x y z (.edge c select debounce)) = some c :=
      inConfigOf_config hc rfl rfl
    have hselect : edgeSelectOf (natAt (setupBody ch x y z (.edge c select debounce)) 11) = some select := edgeSelectOf_code select
    have hdebounce : natAt (setupBody ch x y z (.edge c select debounce)) 12 = debounce :=
      natAt_of_byteOf (of_decide_eq_true hdeb) rfl
    show kindSetup c.run c.depth _ 4 = _
    simp only [kindSetup, hconfig, hselect, hdebounce]

/-! ### CHAN_SET (R70 to R73) -/

theorem places_install (setup : Setup) (safe : Bool) (lines : BitVec 32) : (setup.install safe lines).places = setup.depth := by
  cases setup <;> rfl

section ChanSet

variable {ch : ChanIx} {x y z : Byte} {setup : Setup} {s : State} (hfits : setup.fits = true)

theorem length_setupBody : (setupBody ch x y z setup).length = 13 := by cases setup <;> rfl

theorem chanAt_setupBody : chanAt (setupBody ch x y z setup) 0 = some ch := chanAt_of_ixByte (by cases setup <;> rfl)

include hfits

theorem carryChanSet_inUse (hr : s.plans.referenced ch = true) :
    carryChanSet (setupBody ch x y z setup) s = (s, [0x32, ixByte ch]) := by
  simp only [carryChanSet, withLength, if_pos length_setupBody, chanAt_setupBody, setupOf_setupBody ch x y z hfits, if_pos hr]
  rfl

theorem carryChanSet_lineTaken {n : Fin 32} {o : ChanIx} (hr : s.plans.referenced ch = false)
    (hl : takenLine ch setup.run s.chans.lineMap = some (n, o)) :
    carryChanSet (setupBody ch x y z setup) s = (s, [0x33, byteOf (n.val / 8), byteOf (n.val % 8), ixByte o]) := by
  simp only [carryChanSet, withLength, if_pos length_setupBody, chanAt_setupBody, setupOf_setupBody ch x y z hfits,
    if_neg (Bool.eq_false_iff.1 hr), hl]
  rfl

theorem carryChanSet_noSpace (hr : s.plans.referenced ch = false) (hl : takenLine ch setup.run s.chans.lineMap = none)
    (hd : s.chans.freeCount + (s.chan ch).places < setup.depth) :
    carryChanSet (setupBody ch x y z setup) s = (s, [0x34] ++ le16 (s.chans.freeCount + (s.chan ch).places)) := by
  simp only [carryChanSet, withLength, if_pos length_setupBody, chanAt_setupBody, setupOf_setupBody ch x y z hfits,
    if_neg (Bool.eq_false_iff.1 hr), hl, if_pos hd]
  rfl

theorem carryChanSet_installs (hr : s.plans.referenced ch = false) (hl : takenLine ch setup.run s.chans.lineMap = none)
    (hd : setup.depth ≤ s.chans.freeCount + (s.chan ch).places) :
    carryChanSet (setupBody ch x y z setup) s =
      ({ s with chans := s.chans.replace ch (setup.install s.safe.safe s.pins.lines) },
        [0x00, ixByte ch] ++ le16 (s.chans.freeCount + (s.chan ch).places - setup.depth)) := by
  simp only [carryChanSet, withLength, if_pos length_setupBody, chanAt_setupBody, setupOf_setupBody ch x y z hfits,
    if_neg (Bool.eq_false_iff.1 hr), hl, if_neg (Nat.not_lt.2 hd), ChannelTable.replace, places_install]
  rfl

end ChanSet

/-- Settles O26: the request comes to its last check, and passes it. -/
theorem chanSetInstalls : Obligations.ChanSetInstalls := fun _ _ _ _ _ _ s hfits h hr hlines hd =>
  exec_answered rfl h (carryChanSet_installs (s := s.taken) hfits hr (takenLine_none_of_free hlines) hd) rfl

/-- Settles O27, one clause for each refusal in the order of the checks. -/
theorem chanSetRefusals : Obligations.ChanSetRefusals := fun _ _ _ _ _ _ s hfits h =>
  ⟨fun hr => exec_answered rfl h (carryChanSet_inUse (s := s.taken) hfits hr) rfl,
    fun hr => ⟨fun _ _ hc hn ho hlow =>
      exec_answered rfl h (carryChanSet_lineTaken (s := s.taken) hfits hr (takenLine_lowest hc hn ho hlow)) rfl,
    fun hlines hd =>
      exec_answered rfl h (carryChanSet_noSpace (s := s.taken) hfits hr (takenLine_none_of_free hlines) hd) rfl⟩⟩

/-- A body with a field out of range asks for no configuration, or for no channel (R63, R70). -/
theorem carryChanSet_badValue {body : List Byte} (hlength : body.length = 13) (h : chanAt body 0 = none ∨ setupOf body = none)
    (s : State) : carryChanSet body s = answer statusBadValue s := by
  simp only [carryChanSet, withLength, if_pos hlength]
  split
  · next ch setup hch hset =>
    obtain h | h := h
    · cases hch.symm.trans h
    · cases hset.symm.trans h
  · rfl

/-- Settles O28: the fields of a body that is read lie in the ranges, so that one out of range is not read. -/
theorem chanSetRangeRefused : Obligations.ChanSetRangeRefused := by
  intro seq ch kind port first width depth mark idle safe starve full select debounce s body output input h hout
  refine exec_answered rfl h (carryChanSet_badValue (body := body) rfl ?_ s.taken) rfl
  by_cases hch : 15 < ch.toNat
  · exact .inl (chanAt_none hch)
  refine .inr (Option.eq_none_iff_forall_ne_some.2 fun setup hset => ?_)
  have range := setupOf_range hset
  simp only [body, natAt, byteAt, List.getD_cons_succ, List.getD_cons_zero] at range
  simp only [output, input] at hout
  bv_omega

/-! ### CHAN_RELEASE and QUEUE_FLUSH (R76, R80) -/

section OneByteBody

variable {ch : ChanIx} {b : Byte} (s : State)

theorem carryChanRelease_badValue (hb : 15 < b.toNat) : carryChanRelease [b] s = (s, [0x11]) := by
  simp only [carryChanRelease, chanAt_none (show 15 < natAt [b] 0 from hb)]
  rfl

theorem carryQueueFlush_badValue (hb : 15 < b.toNat) : carryQueueFlush [b] s = (s, [0x11]) := by
  simp only [carryQueueFlush, chanAt_none (show 15 < natAt [b] 0 from hb)]
  rfl

theorem carryChanRelease_ixByte :
    carryChanRelease [ixByte ch] s =
      if s.chan ch = .free then answer statusNotConfigured s
      else if s.plans.referenced ch then answer statusInUse s
      else ({ s with chans := s.chans.replace ch .free }, statusOk :: le16 (s.chans.freeCount + (s.chan ch).places)) := by
  simp only [carryChanRelease, chanAt_of_ixByte (show byteAt [ixByte ch] 0 = ixByte ch from rfl)]
  rfl

theorem carryQueueFlush_ixByte :
    carryQueueFlush [ixByte ch] s =
      if s.chan ch = .free then answer statusNotConfigured s
      else (s.setChan ch (s.chan ch).flushed, [statusOk, byteOf (s.chan ch).fill]) := by
  simp only [carryQueueFlush, chanAt_of_ixByte (show byteAt [ixByte ch] 0 = ixByte ch from rfl)]
  rfl

end OneByteBody

/-- Settles O30, one clause for each outcome of the two requests. -/
theorem releaseAndFlush : Obligations.ReleaseAndFlush := by
  intro seq s
  refine ⟨fun b hb => ⟨fun h => ?_, fun h => ?_⟩, fun ch hc => ⟨fun h => ?_, fun h => ?_⟩,
    fun ch hc => ⟨fun h => ⟨fun hr => ?_, fun hr => ?_⟩, fun h => ?_⟩⟩
  · exact exec_answered rfl h (carryChanRelease_badValue s.taken hb) rfl
  · exact exec_answered rfl h (carryQueueFlush_badValue s.taken hb) rfl
  · exact exec_answered rfl h ((carryChanRelease_ixByte s.taken).trans (if_pos hc)) rfl
  · exact exec_answered rfl h ((carryQueueFlush_ixByte s.taken).trans (if_pos hc)) rfl
  · exact exec_answered rfl h ((carryChanRelease_ixByte s.taken).trans ((if_neg hc).trans (if_pos hr))) rfl
  · have hr' : ¬ s.plans.referenced ch = true := Bool.eq_false_iff.1 hr
    exact exec_answered rfl h ((carryChanRelease_ixByte s.taken).trans ((if_neg hc).trans (if_neg hr'))) rfl
  · exact exec_answered (u := s.setChan ch (s.chan ch).flushed) rfl h ((carryQueueFlush_ixByte s.taken).trans (if_neg hc)) rfl

/-! ### CHAN_READ (R78, R79) -/

theorem setLevel_high_getLsbD (v : LineValue) (i j : Fin 8) :
    (setLevel v i .high).getLsbD j.val = (v.getLsbD j.val || decide (j = i)) := by
  have bit : (1#8 <<< i.val).getLsbD j.val = decide (j = i) := by revert i j; decide
  rw [setLevel, BitVec.getLsbD_or, bit]

/-- The lines with a debounce in progress, gathered from a list of lines. -/
theorem foldl_setLevel_getLsbD (c : EdgeChan) (lines : List (Fin 8)) (v : LineValue) (j : Fin 8) :
    (lines.foldl (fun v i => if (c.debounces.get i).isSome then setLevel v i .high else v) v).getLsbD j.val =
      (v.getLsbD j.val || (decide (j ∈ lines) && (c.debounces.get j).isSome)) := by
  induction lines generalizing v with
  | nil => simp
  | cons i is ih =>
    have first : (if (c.debounces.get i).isSome then setLevel v i .high else v).getLsbD j.val =
        (v.getLsbD j.val || (decide (j = i) && (c.debounces.get j).isSome)) := by
      by_cases hj : j = i
      · subst hj
        split
        · next h => rw [setLevel_high_getLsbD, h, Bool.and_true]
        · next h => rw [Bool.eq_false_iff.2 h, Bool.and_false, Bool.or_false]
      · split
        · rw [setLevel_high_getLsbD, decide_eq_false hj, Bool.false_and]
        · rw [decide_eq_false hj, Bool.false_and, Bool.or_false]
    rw [List.foldl_cons, ih, first]
    simp [Bool.or_assoc, Bool.and_or_distrib_right]

/-- The debouncing field, line by line (R78, log 15). -/
theorem debouncing_getLsbD (c : EdgeChan) (i : Fin 8) :
    c.debouncing.getLsbD i.val = (decide (c.debounce ≠ 0) && (c.debounces.get i).isSome) := by
  unfold EdgeChan.debouncing
  split
  · next h => simp [h]
  · next h =>
    rw [foldl_setLevel_getLsbD]
    simp [h, allLines]

/-- A channel number in range and a flag of 0 or 1 are read (R182). -/
theorem carryChanRead_flag {ch : ChanIx} {flag : Byte} (hf : flag.toNat ≤ 1) (s : State) :
    carryChanRead [ixByte ch, flag] s =
      (if flag = 1 then s.setChan ch (s.chan ch).clearCount else s,
        [0x00, ixByte ch, (s.chan ch).kind.code, flagByte (s.chan ch != .free && s.plans.referenced ch)]
          ++ (s.chan ch).readBytes s.pins.lines) := by
  simp only [carryChanRead, chanAt_of_ixByte (show byteAt [ixByte ch, flag] 0 = ixByte ch from rfl)]
  obtain rfl | rfl := byte_le_one hf <;> rfl

theorem carryChanRead_badValue {chB flag : Byte} (h : 15 < chB.toNat ∨ 1 < flag.toNat) (s : State) :
    carryChanRead [chB, flag] s = (s, [0x11]) := by
  obtain hc | hf := h
  · simp only [carryChanRead, chanAt_none (show 15 < natAt [chB, flag] 0 from hc)]
    rfl
  · simp only [carryChanRead, flagAt_none (show 1 < natAt [chB, flag] 1 from hf)]
    cases chanAt [chB, flag] 0 <;> rfl

/-- Settles O31, one clause for each kind of channel. -/
theorem chanReadReports : Obligations.ChanReadReports := by
  refine ⟨debouncing_getLsbD, fun seq chB flag s h => ⟨fun hout => ?_, ?_⟩⟩
  · exact exec_answered rfl h (carryChanRead_badValue hout s.taken) rfl
  · rintro ch rfl hf referenced out inp
    refine exec_answered rfl h ((carryChanRead_flag (ch := ch) hf s.taken).trans (Prod.ext ?_ ?_)) (by split <;> rfl)
    · show (if flag = 1 then s.taken.setChan ch (s.chan ch).clearCount else s.taken) = _
      split
      · cases s.chan ch <;> rfl
      · rfl
    · show [0x00, ixByte ch, (s.chan ch).kind.code, flagByte (s.chan ch != .free && s.plans.referenced ch)]
        ++ (s.chan ch).readBytes s.pins.lines = _
      cases s.chan ch with
      | burst c =>
        show _ ++ Channel.readBytes _ (.burst c) = _
        cases hb : c.burst <;> simp only [Channel.readBytes, hb] <;> rfl
      | _ => rfl

end Sys2Proof.Machine
end

section
/-! PROOFS. What the channel law (R63, R64, R68, R84, R85, R108) says of one record, and that each change of a record keeps it. -/

namespace Sys2Proof.Machine

/-! ### Line values of a run (R84, R183) -/

theorem Run.holds_iff {r : Run} {v : LineValue} : r.holds v = true ↔ v.toNat < 2 ^ r.width := by
  have := Nat.two_pow_pos r.width
  rw [Run.holds, decide_eq_true_iff]
  omega

theorem Run.holds_of_le {r : Run} {v : LineValue} (h : v.toNat ≤ 2 ^ r.width - 1) : r.holds v = true := decide_eq_true h

theorem Run.holds_maskTo (r : Run) (v : LineValue) : r.holds (maskTo r.width v) = true := by
  refine Run.holds_of_le ?_
  rw [maskTo, BitVec.toNat_and, widthMask, byteOf_toNat]
  exact Nat.and_le_right.trans (Nat.mod_le _ _)

theorem Run.holds_read (r : Run) (lines : BitVec 32) : r.holds (r.read lines) = true := r.holds_maskTo _

theorem Run.holds_setLevel {r : Run} {v : LineValue} {i : Fin 8} (h : r.holds v = true) (hi : i.val < r.width) (l : Level) :
    r.holds (setLevel v i l) = true := by
  rw [Run.holds_iff] at h ⊢
  cases l with
  | high =>
    refine (BitVec.toNat_or v _).symm ▸ Nat.or_lt_two_pow h ?_
    rw [BitVec.toNat_shiftLeft, Nat.shiftLeft_eq, BitVec.toNat_ofNat]
    exact (Nat.mod_le _ _).trans_lt (by simpa using Nat.pow_lt_pow_right (by omega) hi)
  | low =>
    refine (BitVec.toNat_and v _).symm ▸ Nat.lt_of_le_of_lt Nat.and_le_left h

/-! ### BURST records (R85) -/

theorem BurstRec.fitsIn_iff {run : Run} {r : BurstRec} :
    r.fitsIn run = true ↔ 1 ≤ r.count ∧ r.count ≤ 65535 ∧ 1 ≤ r.onTime ∧ r.onTime ≤ 65535 ∧ 1 ≤ r.offTime ∧ r.offTime ≤ 65535 ∧
      run.holds r.active = true := by
  simp [BurstRec.fitsIn, BurstRec.fits, and_assoc]

theorem Burst.fits_iff {run : Run} {b : Burst} :
    b.fits run = true ↔ b.played.fitsIn run = true ∧ 1 ≤ b.remaining ∧ b.remaining ≤ b.played.count := by
  simp [Burst.fits, and_assoc]

theorem read16_le (body : List Byte) (i : Nat) : read16 body i ≤ 65535 := by
  have low := natAt_le body i
  have high := natAt_le body (i + 1)
  rw [read16]
  omega

theorem burstAt_fits {run : Run} {body : List Byte} {i : Nat} {r : BurstRec} (h : burstAt run.width body i = some r) :
    r.fitsIn run = true := by
  unfold burstAt at h
  dsimp only at h
  split at h
  · cases h
  · next hzero =>
    cases h
    have count := read16_le body (i + 1)
    have onTime := read16_le body (i + 3)
    have offTime := read16_le body (i + 5)
    refine BurstRec.fitsIn_iff.2 ?_
    dsimp only
    exact ⟨by omega, by omega, by omega, by omega, by omega, by omega, run.holds_maskTo _⟩

/-- The records of a QUEUE_PUT lie in their ranges (R86). -/
theorem burstsAt_fits {run : Run} {body : List Byte} {n i : Nat} {rs : List BurstRec}
    (h : burstsAt run.width body n i = some rs) : ∀ r ∈ rs, r.fitsIn run = true := by
  induction n generalizing i rs with
  | zero =>
    cases h
    simp
  | succ n ih =>
    unfold burstsAt at h
    split at h
    · next r rs hr hrs =>
      cases h
      exact List.forall_mem_cons.2 ⟨burstAt_fits hr, ih hrs⟩
    · cases h

/-! ### What the law says of one record -/

/-- A stamp of R117: a cycle time of R108, or a change at the very instant at which the cycle is to end (R121). -/
def Debounce.StampFits (now : Nat) (nextBoundary : Option Nat) (d : Debounce) : Prop :=
  d.offset ≤ 1124999 ∨ (d.began = now ∧ nextBoundary = some now)

/-- What the channel law says of a LEVEL_OUT channel: configuration and values in range, no more records than the depth (R63, R68, R84). -/
structure LevelChan.Lawful (c : LevelChan) : Prop where
  config : c.cfg.fits = true
  value : c.cfg.run.holds c.value = true
  queue : ∀ v ∈ c.queue, c.cfg.run.holds v = true
  fill : c.queue.length ≤ c.cfg.depth

/-- What the channel law says of a BURST_OUT channel, with its records and the burst in flight (R64, R85). -/
structure BurstChan.Lawful (c : BurstChan) : Prop where
  config : c.cfg.fits = true
  value : c.cfg.run.holds c.value = true
  queue : ∀ r ∈ c.queue, r.fitsIn c.cfg.run = true
  burst : ∀ b ∈ c.burst, b.fits c.cfg.run = true
  skips : c.skips ≤ 65535
  fill : c.queue.length ≤ c.cfg.depth

/-- What the channel law says of a SAMPLE_IN channel (R63, R64, R108). -/
structure SampleChan.Lawful (c : SampleChan) : Prop where
  config : c.cfg.fits = true
  queue : ∀ r ∈ c.queue, c.cfg.run.holds r.value = true
  lost : c.lost ≤ 65535
  fill : c.queue.length ≤ c.cfg.depth

/-- What the channel law says of an EDGE_IN channel, with the stamps of its debounces (R64, R108, R117). -/
structure EdgeChan.Lawful (now : Nat) (nextBoundary : Option Nat) (c : EdgeChan) : Prop where
  config : c.cfg.fits = true
  debounce : c.debounce ≤ 255
  queue : ∀ r ∈ c.queue, r.fits c.cfg.run = true
  lost : c.lost ≤ 65535
  settled : c.cfg.run.holds c.settled = true
  fill : c.queue.length ≤ c.cfg.depth
  stamps : ∀ (i : Fin 8), ∀ d ∈ c.debounces.get i, d.StampFits now nextBoundary

/-- What the channel law says of one record. -/
def Channel.Lawful (now : Nat) (nextBoundary : Option Nat) : Channel → Prop
  | .free => True
  | .level c => c.Lawful
  | .burst c => c.Lawful
  | .sample c => c.Lawful
  | .edge c => c.Lawful now nextBoundary

theorem Channel.lawful_iff {now : Nat} {nextBoundary : Option Nat} {c : Channel} :
    c.Lawful now nextBoundary ↔ c.fits = true ∧ c.stampsFit now nextBoundary = true ∧ c.fill ≤ c.places := by
  cases c with
  | free => simp [Channel.Lawful, Channel.fits, Channel.stampsFit, Channel.fill, Channel.places]
  | level c =>
    simp only [Channel.Lawful, Channel.fits, Channel.stampsFit, Channel.fill, Channel.places, Bool.and_eq_true, List.all_eq_true]
    exact ⟨fun ⟨hc, hv, hq, hf⟩ => ⟨⟨⟨hc, hv⟩, hq⟩, trivial, hf⟩, fun ⟨⟨⟨hc, hv⟩, hq⟩, _, hf⟩ => ⟨hc, hv, hq, hf⟩⟩
  | burst c =>
    simp only [Channel.Lawful, Channel.fits, Channel.stampsFit, Channel.fill, Channel.places, Bool.and_eq_true, List.all_eq_true,
      decide_eq_true_iff, Option.all_eq_true]
    exact ⟨fun ⟨hc, hv, hq, hb, hs, hf⟩ => ⟨⟨⟨⟨⟨hc, hv⟩, hq⟩, hb⟩, hs⟩, trivial, hf⟩,
      fun ⟨⟨⟨⟨⟨hc, hv⟩, hq⟩, hb⟩, hs⟩, _, hf⟩ => ⟨hc, hv, hq, hb, hs, hf⟩⟩
  | sample c =>
    simp only [Channel.Lawful, Channel.fits, Channel.stampsFit, Channel.fill, Channel.places, Bool.and_eq_true, List.all_eq_true,
      decide_eq_true_iff]
    exact ⟨fun ⟨hc, hq, hl, hf⟩ => ⟨⟨⟨hc, hq⟩, hl⟩, trivial, hf⟩, fun ⟨⟨⟨hc, hq⟩, hl⟩, _, hf⟩ => ⟨hc, hq, hl, hf⟩⟩
  | edge c =>
    have stamps : (∀ (i : Fin 8), ∀ d ∈ c.debounces.get i, d.StampFits now nextBoundary) ↔
        (Channel.edge c).stampsFit now nextBoundary = true := by
      simp [Channel.stampsFit, Debounce.StampFits, cycleTimeFits, allLines, Option.all_eq_true]
    rw [← stamps]
    simp only [Channel.Lawful, Channel.fits, Channel.fill, Channel.places, Bool.and_eq_true, List.all_eq_true, decide_eq_true_iff]
    exact ⟨fun ⟨hc, hd, hq, hl, hs, hf, ht⟩ => ⟨⟨⟨⟨⟨hc, hd⟩, hq⟩, hl⟩, hs⟩, ht, hf⟩,
      fun ⟨⟨⟨⟨⟨hc, hd⟩, hq⟩, hl⟩, hs⟩, ht, hf⟩ => ⟨hc, hd, hq, hl, hs, hf, ht⟩⟩

/-! ### The claim of a record (R65, R67) -/

/-- The lines and the places that a channel has of the table. -/
def Channel.claim (c : Channel) : Option Run × Nat := (c.run?, c.places)

/-- Records of one kind with one configuration have one claim. -/
theorem claim_level {c d : LevelChan} (h : d.cfg = c.cfg) : (Channel.level d).claim = (Channel.level c).claim := by
  simp only [Channel.claim, Channel.run?, Channel.places, h]

theorem claim_burst {c d : BurstChan} (h : d.cfg = c.cfg) : (Channel.burst d).claim = (Channel.burst c).claim := by
  simp only [Channel.claim, Channel.run?, Channel.places, h]

theorem claim_edge {c d : EdgeChan} (h : d.cfg = c.cfg) : (Channel.edge d).claim = (Channel.edge c).claim := by
  simp only [Channel.claim, Channel.run?, Channel.places, h]

/-! ### Configurations and counts -/

theorem OutConfig.holds_idle {c : OutConfig} (h : c.fits = true) : c.run.holds c.idle = true := by
  obtain ⟨-, -, -, hidle, -⟩ := OutConfig.fits_iff.1 h
  exact Run.holds_of_le hidle

theorem OutConfig.holds_safe {c : OutConfig} (h : c.fits = true) : c.run.holds c.safe = true := by
  obtain ⟨-, -, -, -, hsafe⟩ := OutConfig.fits_iff.1 h
  exact Run.holds_of_le hsafe

theorem OutConfig.holds_initial {c : OutConfig} (h : c.fits = true) (safe : Bool) : c.run.holds (c.initial safe) = true := by
  cases safe
  · exact c.holds_idle h
  · exact c.holds_safe h

theorem InConfig.depth_pos {c : InConfig} (h : c.fits = true) : 0 < c.depth := by
  obtain ⟨-, hd, -⟩ := InConfig.fits_iff.1 h
  have := depthFits_iff.1 hd
  omega

theorem satSucc_le {limit n : Nat} (h : n ≤ limit) : satSucc limit n ≤ limit := by
  unfold satSucc
  split <;> omega

theorem lostAfter_le {lost : Nat} (h : lost ≤ 65535) (wasLost : Bool) : lostAfter lost wasLost ≤ 65535 := by
  unfold lostAfter
  split
  · exact satSucc_le h
  · exact h

/-- A record joins a queue: the fill stays within the depth (R68, R109, R110). -/
theorem joinQueue_length {α : Type} {depth : Nat} {q : List α} (hd : 0 < depth) (hq : q.length ≤ depth) (policy : FullPolicy) (r : α) :
    (joinQueue depth policy q r).1.length ≤ depth := by
  by_cases hroom : q.length < depth
  · rw [joinQueue_room hroom, List.length_append]
    exact hroom
  · rw [joinQueue_full (Nat.not_lt.1 hroom)]
    dsimp only
    split
    · exact hq
    · rw [List.length_append, List.length_tail, List.length_singleton]
      omega

theorem joinQueue_forall {α : Type} {Q : α → Prop} {q : List α} {r : α} (hq : ∀ x ∈ q, Q x) (hr : Q r) (depth : Nat)
    (policy : FullPolicy) : ∀ x ∈ (joinQueue depth policy q r).1, Q x := by
  have joined : ∀ l : List α, (∀ x ∈ l, Q x) → ∀ x ∈ l ++ [r], Q x := fun l hl =>
    List.forall_mem_append.2 ⟨hl, List.forall_mem_singleton.2 hr⟩
  by_cases hroom : q.length < depth
  · rw [joinQueue_room hroom]
    exact joined q hq
  · rw [joinQueue_full (Nat.not_lt.1 hroom)]
    dsimp only
    split
    · exact hq
    · exact joined q.tail fun x hx => hq x (List.mem_of_mem_tail hx)

/-- Records put behind a queue, no more than there is room for (R86, R87). -/
theorem length_putBehind {α : Type} {q rs : List α} {depth n : Nat} (hq : q.length ≤ depth) :
    (q ++ rs.take (min n (depth - q.length))).length ≤ depth := by
  rw [List.length_append, List.length_take]
  omega

theorem forall_putBehind {α : Type} {Q : α → Prop} {q rs : List α} (hq : ∀ x ∈ q, Q x) (hrs : ∀ x ∈ rs, Q x) (n : Nat) :
    ∀ x ∈ q ++ rs.take n, Q x :=
  List.forall_mem_append.2 ⟨hq, fun x hx => hrs x (List.mem_of_mem_take hx)⟩

/-! ### Changes of one record that time has no part in -/

section Record

variable {now : Nat} {next : Option Nat}

theorem lawful_toSafe {c : Channel} (h : c.Lawful now next) : c.toSafe.Lawful now next := by
  cases c with
  | level c =>
    obtain ⟨hc, hv, hq, hf⟩ := h
    exact ⟨hc, c.cfg.holds_safe hc, hq, hf⟩
  | burst c =>
    obtain ⟨hc, hv, hq, hb, hs, hf⟩ := h
    exact ⟨hc, c.cfg.holds_safe hc, hq, nofun, hs, hf⟩
  | _ => exact h

theorem lawful_clearCount {c : Channel} (h : c.Lawful now next) : c.clearCount.Lawful now next := by
  cases c with
  | burst c =>
    obtain ⟨hc, hv, hq, hb, hs, hf⟩ := h
    exact ⟨hc, hv, hq, hb, Nat.zero_le _, hf⟩
  | sample c =>
    obtain ⟨hc, hq, hl, hf⟩ := h
    exact ⟨hc, hq, Nat.zero_le _, hf⟩
  | edge c =>
    obtain ⟨hc, hd, hq, hl, hs, hf, ht⟩ := h
    exact ⟨hc, hd, hq, Nat.zero_le _, hs, hf, ht⟩
  | _ => exact h

theorem lawful_flushed {c : Channel} (h : c.Lawful now next) : c.flushed.Lawful now next := by
  cases c with
  | free => exact h
  | level c =>
    obtain ⟨hc, hv, hq, hf⟩ := h
    exact ⟨hc, hv, nofun, Nat.zero_le _⟩
  | burst c =>
    obtain ⟨hc, hv, hq, hb, hs, hf⟩ := h
    exact ⟨hc, hv, nofun, hb, hs, Nat.zero_le _⟩
  | sample c =>
    obtain ⟨hc, hq, hl, hf⟩ := h
    exact ⟨hc, nofun, hl, Nat.zero_le _⟩
  | edge c =>
    obtain ⟨hc, hd, hq, hl, hs, hf, ht⟩ := h
    exact ⟨hc, hd, nofun, hl, hs, Nat.zero_le _, ht⟩

theorem lawful_cutBurst {c : Channel} (h : c.Lawful now next) : c.cutBurst.Lawful now next := by
  cases c with
  | burst c =>
    rw [cutBurst_burst]
    split
    · obtain ⟨hc, hv, hq, hb, hs, hf⟩ := h
      exact ⟨hc, c.cfg.holds_idle hc, hq, nofun, hs, hf⟩
    · exact h
  | _ => exact h

/-- The end of an ON phase keeps the pulses remaining (R93). -/
theorem lawful_endOn {c : Channel} (h : c.Lawful now next) (t : Nat) : (c.onBurst (BurstChan.endOn t)).Lawful now next := by
  cases c with
  | burst c =>
    obtain ⟨hc, hv, hq, hb, hs, hf⟩ := h
    refine ⟨hc, c.cfg.holds_idle hc, hq, ?_, hs, hf⟩
    rintro _ hmem
    obtain ⟨b, hburst, rfl⟩ := Option.map_eq_some_iff.1 hmem
    exact hb b hburst
  | _ => exact h

/-- The end of an OFF phase leaves at least one pulse, or no burst (R93). -/
theorem lawful_endOff {c : Channel} (h : c.Lawful now next) (t : Nat) : (c.onBurst (BurstChan.endOff t)).Lawful now next := by
  cases c with
  | burst c =>
    obtain ⟨hc, hv, hq, hb, hs, hf⟩ := h
    unfold Channel.onBurst BurstChan.endOff
    dsimp only
    split
    · exact ⟨hc, hv, hq, hb, hs, hf⟩
    · next b hburst =>
      obtain ⟨hplayed, hmin, hmax⟩ := Burst.fits_iff.1 (hb b hburst)
      split
      · exact ⟨hc, c.cfg.holds_idle hc, hq, nofun, hs, hf⟩
      · next hmore =>
        obtain ⟨-, -, -, -, -, -, hactive⟩ := BurstRec.fitsIn_iff.1 hplayed
        refine ⟨hc, hactive, hq, ?_, hs, hf⟩
        rintro _ ⟨⟩
        exact Burst.fits_iff.2 ⟨hplayed, by dsimp only; omega, by dsimp only; omega⟩
  | _ => exact h

theorem holds_starve {c : OutConfig} {v : LineValue} (h : c.fits = true) (hv : c.run.holds v = true) :
    c.run.holds (c.starve.value v c.idle) = true := by
  cases hs : c.starve with
  | hold => exact hv
  | idle => exact c.holds_idle h

theorem LevelChan.Lawful.emit {c : LevelChan} (h : c.Lawful) (ch : ChanIx) (p : SlotIx) (cycle : CycleNo) :
    (c.emit ch p cycle).1.Lawful := by
  obtain ⟨hc, hv, hq, hf⟩ := h
  unfold LevelChan.emit
  split
  · next v q hqueue =>
    rw [hqueue] at hq hf
    obtain ⟨hhead, htail⟩ := List.forall_mem_cons.1 hq
    exact ⟨hc, hhead, htail, Nat.le_of_succ_le hf⟩
  · exact ⟨hc, holds_starve hc hv, hq, hf⟩

/-- An EMIT starts the burst of a record in range with all its pulses remaining (R92, R93). -/
theorem BurstChan.Lawful.emit {c : BurstChan} (h : c.Lawful) (t : Nat) (ch : ChanIx) (p : SlotIx) (cycle : CycleNo) :
    (c.emit t ch p cycle).1.Lawful := by
  obtain ⟨hc, hv, hq, hb, hs, hf⟩ := h
  unfold BurstChan.emit
  split
  · exact ⟨hc, hv, hq, hb, satSucc_le hs, hf⟩
  · next r q _ hqueue =>
    rw [hqueue] at hq hf
    obtain ⟨hhead, htail⟩ := List.forall_mem_cons.1 hq
    obtain ⟨hcount, -, -, -, -, -, hactive⟩ := BurstRec.fitsIn_iff.1 hhead
    refine ⟨hc, hactive, htail, ?_, hs, Nat.le_of_succ_le hf⟩
    rintro _ ⟨⟩
    exact Burst.fits_iff.2 ⟨hhead, hcount, Nat.le_refl _⟩
  · exact ⟨hc, holds_starve hc hv, hq, hb, hs, hf⟩

theorem SampleChan.Lawful.append {c : SampleChan} (h : c.Lawful) (ch : ChanIx) {r : SampleRec}
    (hr : c.cfg.run.holds r.value = true) : (c.append ch r).1.Lawful := by
  obtain ⟨hc, hq, hl, hf⟩ := h
  exact ⟨hc, joinQueue_forall hq hr _ _, lostAfter_le hl _, joinQueue_length (InConfig.depth_pos hc) hf _ _⟩

theorem EdgeChan.Lawful.append {c : EdgeChan} (h : c.Lawful now next) (ch : ChanIx) {r : EdgeRec}
    (hr : r.fits c.cfg.run = true) : (c.append ch r).1.Lawful now next := by
  obtain ⟨hc, hd, hq, hl, hs, hf, ht⟩ := h
  exact ⟨hc, hd, joinQueue_forall hq hr _ _, lostAfter_le hl _, hs, joinQueue_length (InConfig.depth_pos hc) hf _ _, ht⟩

theorem EdgeChan.Lawful.openWindow {c : EdgeChan} (h : c.Lawful now next) (lines : BitVec 32) :
    (c.openWindow lines).Lawful now next := by
  rw [EdgeChan.openWindow_eq]
  split
  · exact h
  · obtain ⟨hc, hd, hq, hl, hs, hf, ht⟩ := h
    exact ⟨hc, hd, hq, hl, Run.holds_read _ _, hf, ht⟩

/-! ### Debounces -/

@[simp] theorem noDebounces_get (i : Fin 8) : noDebounces.get i = none := by
  show (Vector.replicate 8 (none : Option Debounce))[i.val] = none
  simp

/-- A debounce set on a line, or none, is found there, and what stood on the other lines is found on them. -/
theorem mem_debounces_set {ds : Vector (Option Debounce) 8} {i j : Fin 8} {x : Option Debounce} {d : Debounce}
    (h : d ∈ (ds.set i.val x i.isLt).get j) : d ∈ x ∨ d ∈ ds.get j := by
  change d ∈ (ds.set i.val x i.isLt)[j.val] at h
  rw [Vector.getElem_set] at h
  split at h
  · exact .inl h
  · exact .inr h

/-- Without debounces the record meets the law at every instant. -/
theorem EdgeChan.Lawful.quiet {c d : EdgeChan} {now' : Nat} {next' : Option Nat} (h : c.Lawful now next)
    (hd : d = { c with window := d.window, debounces := noDebounces }) : d.Lawful now' next' := by
  obtain ⟨hc, hb, hq, hl, hs, hf, ht⟩ := h
  rw [hd]
  exact ⟨hc, hb, hq, hl, hs, hf, fun i d hmem => by simp at hmem⟩

/-- A stamp that is not of the end of its cycle has a cycle time of R108. -/
theorem Debounce.StampFits.cycleTime {d : Debounce} (h : d.StampFits now next) (hd : d.began ≠ now ∨ next ≠ some now) :
    d.offset ≤ 1124999 := by
  obtain h | ⟨hb, hn⟩ := h
  · exact h
  · obtain hd | hd := hd
    · exact absurd hb hd
    · exact absurd hn hd

/-- With no boundary at the present instant every stamp has a cycle time of R108, and the record meets the law at every instant. -/
theorem lawful_later {c : Channel} (h : c.Lawful now next) (hn : next ≠ some now) (now' : Nat) (next' : Option Nat) :
    c.Lawful now' next' := by
  cases c with
  | edge c =>
    obtain ⟨hc, hd, hq, hl, hs, hf, ht⟩ := h
    exact ⟨hc, hd, hq, hl, hs, hf, fun i d hmem => .inl ((ht i d hmem).cycleTime (.inr hn))⟩
  | _ => exact h

/-- A CLOSED window that meets the engine law has no debounce, and closing an OPEN one discards them all (R115, R116). -/
theorem lawful_closeWindow {c : Channel} (h : c.Lawful now next) (hquiet : c.quietWhenClosed = true) (now' : Nat)
    (next' : Option Nat) : c.closeWindow.Lawful now' next' := by
  cases c with
  | edge c =>
    rw [closeWindow_edge]
    refine EdgeChan.Lawful.quiet (c := c) h ?_
    cases hw : c.window with
    | opened => rfl
    | closed =>
      have hd : c.debounces = noDebounces := by simpa [Channel.quietWhenClosed, hw] using hquiet
      cases c
      cases hw
      cases hd
      rfl
  | _ => exact h

theorem lawful_atStop {c : Channel} (h : c.Lawful now next) (hquiet : c.quietWhenClosed = true) (atOnce : Bool) (now' : Nat)
    (next' : Option Nat) : (c.atStop atOnce).Lawful now' next' := by
  have cut : c.cutBurst.quietWhenClosed = true := by
    cases c with
    | burst c =>
      rw [cutBurst_burst]
      rfl
    | _ => exact hquiet
  cases atOnce with
  | false => exact lawful_closeWindow h hquiet _ _
  | true => exact lawful_closeWindow (lawful_cutBurst h) cut _ _

/-- A boundary moves the stamps of its own instant to cycle time 0 (R121), so that all have a cycle time of R108. -/
theorem lawful_restamp {c : Channel} (h : c.Lawful now next) (cycle : CycleNo) (next' : Option Nat) :
    (c.restamp now cycle).Lawful now next' := by
  cases c with
  | edge c =>
    obtain ⟨hc, hd, hq, hl, hs, hf, ht⟩ := h
    refine ⟨hc, hd, hq, hl, hs, hf, fun i d hmem => .inl ?_⟩
    change d ∈ (c.debounces.map (Option.map (Debounce.restamp now cycle)))[i.val] at hmem
    rw [Vector.getElem_map] at hmem
    obtain ⟨old, hold, rfl⟩ := Option.map_eq_some_iff.1 hmem
    unfold Debounce.restamp
    split
    · exact Nat.zero_le _
    · next hb => exact (ht i old hold).cycleTime (.inl hb)
  | _ => exact h

/-- A record that meets the law, with the configuration and the debounce time of another. -/
def EdgeChan.Follows (now : Nat) (next : Option Nat) (c d : EdgeChan) : Prop :=
  d.Lawful now next ∧ d.cfg = c.cfg ∧ d.debounce = c.debounce

/-- Changes line by line, of the lines of the run. -/
theorem follows_foldl {α : Type} {c : EdgeChan} {f : α → Fin 8 → α} {toChan : α → EdgeChan}
    (hf : ∀ x i, i.val < (toChan x).cfg.run.width → (toChan x).Lawful now next → (toChan x).debounce = c.debounce →
      EdgeChan.Follows now next (toChan x) (toChan (f x i))) {x : α} (h : EdgeChan.Follows now next c (toChan x)) :
    EdgeChan.Follows now next c (toChan (c.lines.foldl f x)) := by
  have inRun : ∀ i ∈ c.lines, i.val < c.cfg.run.width := fun i hi => of_decide_eq_true (List.mem_filter.1 hi).2
  generalize c.lines = lines at inRun
  induction lines generalizing x with
  | nil => exact h
  | cons i is ih =>
    obtain ⟨hi, his⟩ := List.forall_mem_cons.1 inRun
    obtain ⟨hlaw, hcfg, hdeb⟩ := h
    obtain ⟨hlaw', hcfg', hdeb'⟩ := hf x i (by rw [hcfg]; exact hi) hlaw hdeb
    exact ih ⟨hlaw', hcfg'.trans hcfg, hdeb'.trans hdeb⟩ his

/-- A sample stamps what it begins with the present instant and cycle time (R117). -/
theorem follows_sampleLine {c : EdgeChan} {i : Fin 8} {stamp : Stamp} (h : c.Lawful now next) (hi : i.val < c.cfg.run.width)
    (hinstant : stamp.instant = now) (hoffset : stamp.offset ≤ 1124999 ∨ next = some now) (value : LineValue) :
    EdgeChan.Follows now next c (c.sampleLine stamp value i) := by
  obtain ⟨hc, hd, hq, hl, hs, hf, ht⟩ := h
  unfold EdgeChan.sampleLine
  split
  · refine ⟨⟨hc, hd, hq, hl, hs, hf, fun j d hmem => ?_⟩, rfl, rfl⟩
    obtain hnone | hold := mem_debounces_set hmem
    · cases hnone
    · exact ht j d hold
  · split
    · exact ⟨⟨hc, hd, hq, hl, hs, hf, ht⟩, rfl, rfl⟩
    · split
      · exact ⟨⟨hc, hd, hq, hl, Run.holds_setLevel hs hi _, hf, ht⟩, rfl, rfl⟩
      · refine ⟨⟨hc, hd, hq, hl, hs, hf, fun j d hmem => ?_⟩, rfl, rfl⟩
        obtain hnew | hold := mem_debounces_set hmem
        · cases hnew
          exact hoffset.imp id fun hn => ⟨hinstant, hn⟩
        · exact ht j d hold

theorem sampled_kept {c : Channel} {stamp : Stamp} (h : c.Lawful now next) (hinstant : stamp.instant = now)
    (hoffset : stamp.offset ≤ 1124999 ∨ next = some now) (levels : BitVec 32) :
    (c.sampled stamp levels).Lawful now next ∧ (c.sampled stamp levels).claim = c.claim := by
  cases c with
  | edge c =>
    have folded := follows_foldl (f := EdgeChan.sampleLine stamp (c.cfg.run.read levels)) (toChan := id)
      (fun d i hi hd _ => follows_sampleLine hd hi hinstant hoffset _) (x := c) ⟨h, rfl, rfl⟩
    obtain ⟨hlaw, hcfg, -⟩ := folded
    unfold Channel.sampled
    dsimp only
    split
    · exact ⟨hlaw, claim_edge hcfg⟩
    · exact ⟨h, rfl⟩
  | _ => exact ⟨h, rfl⟩

/-- A debounce is confirmed once its time is over, or, with a debounce time of 0, while no boundary is at this instant: its record has
a cycle time of R108 (R119, log 15). -/
theorem follows_confirmLine {c : EdgeChan} {i : Fin 8} (h : c.Lawful now next) (hi : i.val < c.cfg.run.width)
    (hd : c.debounce ≠ 0 ∨ next ≠ some now) (ch : ChanIx) (value : LineValue) :
    EdgeChan.Follows now next c (c.confirmLine ch now value i).1 := by
  unfold EdgeChan.confirmLine
  split
  · next d hdeb =>
    split
    · next hdue =>
      have offset : d.offset ≤ 1124999 := by
        refine (h.stamps i d hdeb).cycleTime (hd.imp (fun hz hb => ?_) id)
        simp only [EdgeChan.lineDue, hdeb, Bool.and_eq_true, beq_iff_eq] at hdue
        omega
      obtain ⟨hc, hb, hq, hl, hs, hf, ht⟩ := h
      have settled : EdgeChan.Lawful now next
          { c with settled := setLevel c.settled i d.level, debounces := c.debounces.set i.val none i.isLt } := by
        refine ⟨hc, hb, hq, hl, Run.holds_setLevel hs hi _, hf, fun j d hmem => ?_⟩
        obtain hnone | hold := mem_debounces_set hmem
        · cases hnone
        · exact ht j d hold
      unfold EdgeChan.confirm
      dsimp only
      split
      · refine ⟨settled.append ch ?_, rfl, rfl⟩
        simp [EdgeRec.fits, cycleTimeFits, hi, offset]
      · exact ⟨settled, rfl, rfl⟩
    · exact ⟨h, rfl, rfl⟩
  · exact ⟨h, rfl, rfl⟩

theorem EdgeChan.Lawful.confirmDue {c : EdgeChan} (h : c.Lawful now next) (hd : c.debounce ≠ 0 ∨ next ≠ some now) (ch : ChanIx)
    (value : LineValue) : EdgeChan.Follows now next c (c.confirmDue ch now value).1 :=
  follows_foldl (c := c) (toChan := Prod.fst) (x := (c, []))
    (f := fun (p : EdgeChan × List Raised) i =>
      ((p.1.confirmLine ch now value i).1, p.2 ++ (p.1.confirmLine ch now value i).2))
    (fun _ _ hi hp hdeb => follows_confirmLine hp hi (by rw [hdeb]; exact hd) ch value) ⟨h, rfl, rfl⟩

/-- What CHAN_SET installs has its values in range, an empty queue and no debounce (R73). -/
theorem lawful_install {setup : Setup} (h : setup.fits = true) (safe : Bool) (lines : BitVec 32) :
    (setup.install safe lines).Lawful now next := by
  cases setup with
  | level c => exact ⟨h, c.holds_initial h safe, nofun, Nat.zero_le _⟩
  | burst c => exact ⟨h, c.holds_initial h safe, nofun, nofun, Nat.zero_le _, Nat.zero_le _⟩
  | sample c => exact ⟨h, nofun, Nat.zero_le _, Nat.zero_le _⟩
  | edge c select debounce =>
    obtain ⟨hc, hd⟩ := Bool.and_eq_true_iff.1 h
    exact ⟨hc, of_decide_eq_true hd, nofun, Nat.zero_le _, Run.holds_read _ _, Nat.zero_le _, fun i d hmem => by simp at hmem⟩

theorem lawful_channelRequest {s : State} {ch : ChanIx} {c : Channel} (h : (s.chan ch).Lawful now next)
    (e : ChannelRequest s ch c) : c.Lawful now next := by
  cases e with
  | clears => exact lawful_clearCount h
  | flushes => exact lawful_flushed h
  | resets select hch hdeb =>
    rw [hch] at h
    obtain ⟨hc, hd, hq, hl, hs, hf, ht⟩ := h
    exact ⟨hc, hdeb, hq, hl, Run.holds_read _ _, hf, fun i d hmem => by simp [EdgeChan.reset] at hmem⟩
  | @putsLevels c rs hch =>
    rw [hch] at h
    obtain ⟨hc, hv, hq, hf⟩ := h
    refine ⟨hc, hv, ?_, ?_⟩
    · rw [List.map_take]
      exact forall_putBehind hq (List.forall_mem_map.2 fun b _ => c.cfg.run.holds_maskTo b) _
    · rw [List.map_take]
      exact length_putBehind hf
  | putsBursts hch hr =>
    rw [hch] at h
    obtain ⟨hc, hv, hq, hb, hs, hf⟩ := h
    exact ⟨hc, hv, forall_putBehind hq (burstsAt_fits hr) _, hb, hs, length_putBehind hf⟩
  | takesSamples n hch =>
    rw [hch] at h
    obtain ⟨hc, hq, hl, hf⟩ := h
    exact ⟨hc, fun r hr => hq r (List.mem_of_mem_drop hr), hl, (List.drop_sublist n _).length_le.trans hf⟩
  | takesEdges n hch =>
    rw [hch] at h
    obtain ⟨hc, hd, hq, hl, hs, hf, ht⟩ := h
    exact ⟨hc, hd, fun r hr => hq r (List.mem_of_mem_drop hr), hl, hs, (List.drop_sublist n _).length_le.trans hf, ht⟩

end Record

end Sys2Proof.Machine
end

section
/-! PROOFS. The channel law is kept by every step: the line map and the pool follow the claims of the records (R65, R67), and the next
boundary bounds the cycle times of the stamps (R28, R108). -/

namespace Sys2Proof.Machine

/-! ### Lines and places (R65, R67) -/

/-- The line map names the owner of every line, and the pool holds what the channels do not. -/
def ChannelTable.Claims (t : ChannelTable) : Prop :=
  (∀ (n : Fin 32) (ch : ChanIx), t.lineMap.get n = some ch ↔ (t.records.get ch).ownsLine n = true) ∧
  t.freeCount + ∑ ch, (t.records.get ch).places = 512

theorem placesHeld_eq_sum (s : State) : placesHeld s = ∑ ch, (s.chan ch).places := (Fin.sum_univ_def _).symm

theorem channelLaw_iff {s : State} :
    ChannelLaw s ↔ (∀ ch, (s.chan ch).Lawful s.now s.engine.nextBoundary) ∧ s.chans.Claims := by
  unfold ChannelLaw ChannelTable.Claims
  rw [placesHeld_eq_sum]
  constructor
  · rintro ⟨hfits, hstamps, hfill, hmap, hpool⟩
    exact ⟨fun ch => Channel.lawful_iff.2 ⟨hfits ch, hstamps ch, hfill ch⟩, hmap, hpool⟩
  · rintro ⟨hlaw, hmap, hpool⟩
    simp only [Channel.lawful_iff, forall_and] at hlaw
    obtain ⟨hfits, hstamps, hfill⟩ := hlaw
    exact ⟨hfits, hstamps, hfill, hmap, hpool⟩

/-- The claims of records are all that the line map and the pool depend on. -/
theorem ChannelTable.Claims.congr {t u : ChannelTable} (h : t.Claims) (hm : u.lineMap = t.lineMap) (hf : u.freeCount = t.freeCount)
    (hc : ∀ ch, (u.records.get ch).claim = (t.records.get ch).claim) : u.Claims := by
  obtain ⟨hmap, hpool⟩ := h
  have runs : ∀ ch, (u.records.get ch).run? = (t.records.get ch).run? := fun ch => congrArg Prod.fst (hc ch)
  have places : ∀ ch, (u.records.get ch).places = (t.records.get ch).places := fun ch => congrArg Prod.snd (hc ch)
  refine ⟨fun n ch => ?_, ?_⟩
  · rw [hm, hmap, Channel.ownsLine, Channel.ownsLine, runs]
  · rw [hf, Finset.sum_congr rfl fun ch _ => places ch, hpool]

theorem claims_setChan {s : State} {ch : ChanIx} {c : Channel} (h : s.chans.Claims) (hc : c.claim = (s.chan ch).claim) :
    (s.setChan ch c).chans.Claims := by
  refine h.congr rfl rfl fun o => ?_
  by_cases ho : o = ch
  · subst ho
    exact (congrArg Channel.claim (State.chan_setChan_self o c s)).trans hc
  · exact congrArg Channel.claim (State.chan_setChan_other ho c s)

theorem claims_mapRecords {t : ChannelTable} {f : Channel → Channel} (h : t.Claims)
    (hf : ∀ ch, (f (t.records.get ch)).claim = (t.records.get ch).claim) : (t.mapRecords f).Claims :=
  h.congr (t.mapRecords_lineMap f) (t.mapRecords_freeCount f) fun ch => by rw [ChannelTable.mapRecords_get, hf]

/-- A configuration ended and another installed: lines and places move with it (R72, R73). -/
theorem claims_replace {t : ChannelTable} {ch : ChanIx} {c : Channel} (h : t.Claims)
    (hl : ∀ (n : Fin 32) (o : ChanIx), c.ownsLine n = true → t.lineMap.get n = some o → o = ch)
    (hd : c.places ≤ t.freeCount + (t.records.get ch).places) : (t.replace ch c).Claims := by
  obtain ⟨hmap, hpool⟩ := h
  refine ⟨fun n o => ?_, ?_⟩
  · rw [replace_lineMap_get]
    by_cases ho : o = ch
    · subst ho
      rw [replace_records_self]
      split
      · next hown => simp [hown]
      · next hown =>
        split
        · simp [hown]
        · next hother => simp [hown, hother]
    · rw [replace_records_other ho, ← hmap]
      split
      · next hown =>
        have hne : t.lineMap.get n ≠ some o := fun hn => ho (hl n o hown hn)
        simp [hne, Ne.symm ho]
      · split
        · next hmine => simp [hmine, Ne.symm ho]
        · rfl
  · have others : ∑ o ∈ Finset.univ.erase ch, ((t.replace ch c).records.get o).places =
        ∑ o ∈ Finset.univ.erase ch, (t.records.get o).places :=
      Finset.sum_congr rfl fun o ho => by rw [replace_records_other (Finset.ne_of_mem_erase ho)]
    rw [← Finset.add_sum_erase _ _ (Finset.mem_univ ch)] at hpool
    rw [← Finset.add_sum_erase _ _ (Finset.mem_univ ch), others, replace_records_self,
      show (t.replace ch c).freeCount = t.freeCount + (t.records.get ch).places - c.places from rfl]
    omega

/-! ### Claims kept -/

theorem claim_toSafe (c : Channel) : c.toSafe.claim = c.claim := by cases c <;> rfl

theorem claim_restamp (now : Nat) (cycle : CycleNo) (c : Channel) : (c.restamp now cycle).claim = c.claim := by cases c <;> rfl

theorem claim_closeWindow (c : Channel) : c.closeWindow.claim = c.claim := by
  cases c with
  | edge c =>
    rw [closeWindow_edge]
    split <;> rfl
  | _ => rfl

theorem claim_cutBurst (c : Channel) : c.cutBurst.claim = c.claim := by
  cases c with
  | burst c =>
    rw [cutBurst_burst]
    split <;> rfl
  | _ => rfl

theorem claim_atStop (now : Bool) (c : Channel) : (c.atStop now).claim = c.claim := by
  cases now with
  | false => exact claim_closeWindow c
  | true => exact (claim_closeWindow _).trans (claim_cutBurst c)

theorem claim_clearCount (c : Channel) : c.clearCount.claim = c.claim := by cases c <;> rfl

theorem claim_flushed (c : Channel) : c.flushed.claim = c.claim := by cases c <;> rfl

theorem claim_onBurst {f : BurstChan → BurstChan} (hf : ∀ c, (f c).cfg = c.cfg) (c : Channel) : (c.onBurst f).claim = c.claim := by
  cases c with
  | burst c => simp only [Channel.onBurst, Channel.claim, Channel.run?, Channel.places, hf]
  | _ => rfl

theorem endOff_cfg (now : Nat) (c : BurstChan) : (c.endOff now).cfg = c.cfg := by
  unfold BurstChan.endOff
  split
  · rfl
  · split <;> rfl

theorem LevelChan.emit_cfg (ch : ChanIx) (p : SlotIx) (cycle : CycleNo) (c : LevelChan) : (c.emit ch p cycle).1.cfg = c.cfg := by
  unfold LevelChan.emit
  split <;> rfl

theorem BurstChan.emit_cfg (now : Nat) (ch : ChanIx) (p : SlotIx) (cycle : CycleNo) (c : BurstChan) :
    (c.emit now ch p cycle).1.cfg = c.cfg := by
  unfold BurstChan.emit
  split <;> rfl

theorem EdgeChan.openWindow_cfg (lines : BitVec 32) (c : EdgeChan) : (c.openWindow lines).cfg = c.cfg := by
  rw [EdgeChan.openWindow_eq]
  split <;> rfl

theorem claim_channelRequest {s : State} {ch : ChanIx} {c : Channel} (e : ChannelRequest s ch c) : c.claim = (s.chan ch).claim := by
  cases e with
  | clears => exact claim_clearCount _
  | flushes => exact claim_flushed _
  | resets select hc hd => rw [hc]; rfl
  | putsLevels rs hc => rw [hc]; rfl
  | putsBursts hc hr => rw [hc]; rfl
  | takesSamples n hc => rw [hc]; rfl
  | takesEdges n hc => rw [hc]; rfl

/-! ### Changes of the channel table -/

theorem channelLaw_setChan {s : State} {ch : ChanIx} {c : Channel} (h : ChannelLaw s) (hc : c.claim = (s.chan ch).claim)
    (hl : c.Lawful s.now s.engine.nextBoundary) : ChannelLaw (s.setChan ch c) := by
  obtain ⟨hlaw, hclaims⟩ := channelLaw_iff.1 h
  exact channelLaw_iff.2 ⟨forall_setChan hlaw hl, claims_setChan hclaims hc⟩

/-- The law reads the channel table, the present instant and the next boundary. -/
theorem channelLaw_congr {s t : State} (h : ChannelLaw s) (hc : t.chans = s.chans) (hn : t.now = s.now)
    (hb : t.engine.nextBoundary = s.engine.nextBoundary) : ChannelLaw t := by
  rw [channelLaw_iff] at h ⊢
  unfold State.chan at h ⊢
  rw [hc, hn, hb]
  exact h

theorem applyCause_now (c : Cause) (s : State) : (applyCause c s).now = s.now := by
  unfold applyCause
  split
  · rfl
  · rw [raise_now]

theorem applyCause_engine (c : Cause) (s : State) : (applyCause c s).engine = s.engine := by
  unfold applyCause
  split
  · rfl
  · rw [raise_engine]

theorem applyCause_chans (c : Cause) (s : State) :
    (applyCause c s).chans = if s.safe.safe then s.chans else s.chans.mapRecords Channel.toSafe := by
  unfold applyCause
  split
  · rfl
  · rw [raise_chans]

/-- All records changed by one function that keeps their claims. -/
theorem channelLaw_mapRecords {s : State} {f : Channel → Channel} (h : ChannelLaw s)
    (hf : ∀ ch, (f (s.chan ch)).Lawful s.now s.engine.nextBoundary ∧ (f (s.chan ch)).claim = (s.chan ch).claim) :
    ChannelLaw { s with chans := s.chans.mapRecords f } := by
  obtain ⟨-, hclaims⟩ := channelLaw_iff.1 h
  refine channelLaw_iff.2 ⟨fun ch => ?_, claims_mapRecords hclaims fun ch => (hf ch).2⟩
  show ((s.chans.mapRecords f).records.get ch).Lawful s.now s.engine.nextBoundary
  rw [ChannelTable.mapRecords_get]
  exact (hf ch).1

theorem channelLaw_applyCause {s : State} (h : ChannelLaw s) (c : Cause) : ChannelLaw (applyCause c s) := by
  obtain ⟨hlaw, -⟩ := channelLaw_iff.1 h
  have next : (applyCause c s).engine.nextBoundary = s.engine.nextBoundary := by rw [applyCause_engine]
  cases hs : s.safe.safe with
  | true => exact channelLaw_congr h (by simp [applyCause_chans, hs]) (applyCause_now c s) next
  | false =>
    have safe := channelLaw_mapRecords h fun ch => ⟨lawful_toSafe (hlaw ch), claim_toSafe _⟩
    exact channelLaw_congr safe (by simp [applyCause_chans, hs]) (applyCause_now c s) next

/-- The law holds of every state without channels (R82). -/
theorem channelLaw_cleared {s : State} (hc : s.chans = ChannelTable.afterReset) : ChannelLaw s := by
  obtain ⟨-, hclaims⟩ := channelLaw_iff.1 channelLaw_reset
  refine channelLaw_iff.2 ⟨fun ch => ?_, ?_⟩
  · rw [State.chan, hc, records_afterReset]
    trivial
  · rw [hc]
    exact hclaims

theorem channelLaw_softReset (s : State) : ChannelLaw (softReset s) := by
  unfold softReset announceReset
  dsimp only
  split
  · exact channelLaw_applyCause (channelLaw_cleared rfl) _
  · exact channelLaw_cleared rfl

/-- Entry into STOPPED leaves no debounce (R43, R115). -/
theorem channelLaw_entersStopped {s : State} (he : EngineLaw s) (h : ChannelLaw s) (now : Bool) : ChannelLaw (s.entersStopped now) := by
  obtain ⟨hlaw, hclaims⟩ := channelLaw_iff.1 h
  obtain ⟨-, hwindows⟩ := engineLaw_iff.1 he
  refine channelLaw_iff.2 ⟨fun ch => ?_, claims_mapRecords hclaims fun _ => claim_atStop now _⟩
  show ((s.chans.mapRecords (Channel.atStop now)).records.get ch).Lawful _ _
  rw [ChannelTable.mapRecords_get]
  exact lawful_atStop (hlaw ch) (hwindows ch).2 now _ _

/-- With no boundary at the present instant the law does not depend on the instant and the next boundary. -/
theorem channelLaw_later {s t : State} (h : ChannelLaw s) (hn : s.engine.nextBoundary ≠ some s.now) (hc : t.chans = s.chans) :
    ChannelLaw t := by
  obtain ⟨hlaw, hclaims⟩ := channelLaw_iff.1 h
  refine channelLaw_iff.2 ⟨fun ch => ?_, hc ▸ hclaims⟩
  rw [State.chan, hc]
  exact lawful_later (hlaw ch) hn _ _

theorem channelLaw_replace {s : State} {ch : ChanIx} {c : Channel} (h : ChannelLaw s) (hl : c.Lawful s.now s.engine.nextBoundary)
    (hlines : ∀ (n : Fin 32) (o : ChanIx), c.ownsLine n = true → s.chans.lineMap.get n = some o → o = ch)
    (hd : c.places ≤ s.chans.freeCount + (s.chan ch).places) : ChannelLaw { s with chans := s.chans.replace ch c } := by
  obtain ⟨hlaw, hclaims⟩ := channelLaw_iff.1 h
  exact channelLaw_iff.2 ⟨forall_replace hlaw hl, claims_replace hclaims hlines hd⟩

theorem ownsLine_install (setup : Setup) (safe : Bool) (lines : BitVec 32) (n : Fin 32) :
    (setup.install safe lines).ownsLine n = setup.run.covers n.val := by cases setup <;> rfl

/-! ### The next boundary -/

/-- The next internal boundary is not overdue (R28). -/
def BoundaryAhead (s : State) : Prop := notPast s.now s.engine.nextBoundary

/-- A cycle lasts at most 1,125,000 µs, so that a cycle time is one of R108 but at the very instant at which the cycle is to end. -/
theorem stamp_offset_fits {s : State} (he : EngineLaw s) (hb : BoundaryAhead s) :
    s.stamp.offset ≤ 1124999 ∨ s.engine.nextBoundary = some s.now := by
  obtain ⟨⟨-, hmax, -, hnext, -⟩, -⟩ := engineLaw_iff.1 he
  change s.engine.period ≤ 1000000 at hmax
  show (s.engine.cycleStart.map (s.now - ·)).getD 0 ≤ 1124999 ∨ _
  cases hs : s.engine.cycleStart with
  | none => exact .inl (Nat.zero_le _)
  | some start =>
    rw [hs, Option.map_some] at hnext
    have ahead : s.now ≤ s.engine.boundaryAfter start := hb _ hnext
    have longest : s.engine.boundaryAfter start ≤ start + 1125000 := by
      unfold Engine.boundaryAfter
      split
      · omega
      · split <;> omega
    rw [hnext, Option.some.injEq, Option.map_some, Option.getD_some]
    omega

/-- A cycle that began now does not end now (R28). -/
theorem nextBoundary_ne_start {s : State} (he : EngineLaw s) (hs : s.engine.cycleStart = some s.now) :
    s.engine.nextBoundary ≠ some s.now := by
  obtain ⟨⟨hmin, -, -, hnext, -⟩, -⟩ := engineLaw_iff.1 he
  change 250 ≤ s.engine.period at hmin
  rw [hnext, hs, Option.map_some, Ne, Option.some.injEq]
  unfold Engine.boundaryAfter
  split
  · omega
  · split <;> omega

/-- Outside RUNNING there is no next boundary. -/
theorem nextBoundary_halted {s : State} (he : EngineLaw s) (hs : s.engine.state ≠ .running) : s.engine.nextBoundary = none := by
  obtain ⟨hengine, -⟩ := engineLaw_iff.1 he
  exact (hengine.halted hs).2.1

/-- The time base counts only with no boundary at the present instant (R27). -/
theorem nextBoundary_ne_now_of_idle {s : State} (he : EngineLaw s) (hw : s.hwReset = none) (hd : dueEvents s = []) :
    s.engine.nextBoundary ≠ some s.now := by
  by_cases hs : s.engine.state = .running
  · exact nextBoundary_ne_now hw hd hs
  · simp [nextBoundary_halted he hs]

theorem boundaryAhead_none {s : State} (h : s.engine.nextBoundary = none) : BoundaryAhead s := by
  rw [BoundaryAhead, h]
  exact notPast_none _

theorem boundaryAhead_startCycle {s : State} {e : Engine} (h : s.engine = e.startCycle s.now) : BoundaryAhead s := by
  rw [BoundaryAhead, h]
  exact (onTime_startCycle e s.now).2

theorem boundaryAhead_congr {s t : State} (h : BoundaryAhead s) (hn : t.now = s.now)
    (hb : t.engine.nextBoundary = s.engine.nextBoundary) : BoundaryAhead t := by
  rw [BoundaryAhead, hn, hb]
  exact h

/-! ### Requests -/

theorem boundaryAhead_applyCause {s : State} (h : BoundaryAhead s) (c : Cause) : BoundaryAhead (applyCause c s) :=
  boundaryAhead_congr h (applyCause_now c s) (by rw [applyCause_engine])

theorem boundaryAhead_requestEffect {s u : State} (h : BoundaryAhead s) (e : RequestEffect s u) : BoundaryAhead u := by
  cases e with
  | starts hs hm => exact boundaryAhead_startCycle rfl
  | stops now hs => exact boundaryAhead_none rfl
  | causes => exact boundaryAhead_applyCause h _
  | _ => exact boundaryAhead_congr h rfl rfl

theorem channelLaw_requestEffect {s u : State} (he : EngineLaw s) (h : ChannelLaw s) (e : RequestEffect s u) : ChannelLaw u := by
  obtain ⟨hlaw, -⟩ := channelLaw_iff.1 h
  cases e with
  | starts hs hm => exact channelLaw_later h (by simp [nextBoundary_halted he, hs]) rfl
  | stops now hs => exact channelLaw_entersStopped he h now
  | @installs ch body setup hset hr hl hd =>
    refine channelLaw_replace h (lawful_install (setup_fits_of_setupOf hset) _ _) (fun n o hown hn => ?_) ?_
    · rw [ownsLine_install] at hown
      exact takenLine_none_iff.1 hl n o hown hn
    · rw [places_install]
      exact hd
  | releases hc hr => exact channelLaw_replace h trivial (fun n o hown _ => nomatch hown) (Nat.zero_le _)
  | changes hc => exact channelLaw_setChan h (claim_channelRequest hc) (lawful_channelRequest (hlaw _) hc)
  | causes => exact channelLaw_applyCause h _
  | _ => exact channelLaw_congr h rfl rfl rfl

/-! ### Events -/

theorem boundaryAhead_softReset (s : State) : BoundaryAhead (softReset s) := by
  unfold softReset announceReset
  dsimp only
  split
  · exact boundaryAhead_applyCause (boundaryAhead_none rfl) _
  · exact boundaryAhead_none rfl

theorem boundaryAhead_eventEffect {s u : State} (h : BoundaryAhead s) (e : EventEffect s u) : BoundaryAhead u := by
  cases e with
  | cycles hs hf => exact boundaryAhead_startCycle rfl
  | firstCycle hs hm => exact boundaryAhead_startCycle rfl
  | stops hs => exact boundaryAhead_none rfl
  | causes c hw => exact boundaryAhead_applyCause h c
  | softReset hw => exact boundaryAhead_softReset s
  | resetBegins ht =>
    cases ht
    exact boundaryAhead_none rfl
  | resetEnds hw ht =>
    rw [exec_hardwareResetEnd hw] at ht
    cases ht
    exact boundaryAhead_none rfl
  | _ => exact boundaryAhead_congr h rfl rfl

/-- A boundary that begins a cycle leaves every stamp with a cycle time of R108 (R121). -/
theorem lawful_stampAtBoundary {s : State} (he : EngineLaw s) {ch : ChanIx} (h : (s.chan ch).Lawful s.now s.engine.nextBoundary)
    (cycle : CycleNo) (next : Option Nat) : ((stampAtBoundary cycle s).records.get ch).Lawful s.now next := by
  unfold stampAtBoundary
  split
  · next hs => exact lawful_later h (nextBoundary_ne_start he hs) _ _
  · rw [ChannelTable.mapRecords_get]
    exact lawful_restamp h cycle next

theorem claims_stampAtBoundary {s : State} (h : s.chans.Claims) (cycle : CycleNo) : (stampAtBoundary cycle s).Claims := by
  unfold stampAtBoundary
  split
  · exact h
  · exact claims_mapRecords h fun _ => claim_restamp _ _ _

theorem channelLaw_handedOff {s : State} {p : SlotIx} {st : Step} {chans : ChannelTable} (he : EngineLaw s)
    (h : ChannelLaw s) (e : HandedOff s p st chans) : ChannelLaw { s with chans := chans } := by
  obtain ⟨hlaw, -⟩ := channelLaw_iff.1 h
  cases e with
  | unchanged => exact h
  | @emitsLevel ch c ha hc hs =>
    have hl := hlaw ch
    rw [hc] at hl
    exact channelLaw_setChan h ((claim_level (c.emit_cfg _ _ _)).trans (by rw [hc])) (LevelChan.Lawful.emit hl _ _ _)
  | @emitsBurst ch c ha hc hs =>
    have hl := hlaw ch
    rw [hc] at hl
    exact channelLaw_setChan h ((claim_burst (c.emit_cfg _ _ _ _)).trans (by rw [hc])) (BurstChan.Lawful.emit hl _ _ _ _)
  | @samples ch c ha hc =>
    have hl := hlaw ch
    rw [hc] at hl
    exact channelLaw_setChan h (by rw [hc]; rfl) (SampleChan.Lawful.append hl ch (Run.holds_read _ _))
  | @opens ch c ha hc =>
    have hl := hlaw ch
    rw [hc] at hl
    exact channelLaw_setChan h ((claim_edge (c.openWindow_cfg _)).trans (by rw [hc])) (EdgeChan.Lawful.openWindow hl _)
  | @closes ch c ha hc =>
    obtain ⟨-, hwindows⟩ := engineLaw_iff.1 he
    rw [← hc]
    exact channelLaw_setChan h (claim_closeWindow _) (lawful_closeWindow (hlaw ch) (hwindows ch).2 _ _)

/-- A debounce of time 0 is confirmed only while no boundary is at this instant (log 15). -/
theorem debounceDue_later {s : State} {ch : ChanIx} {c : EdgeChan} (he : EngineLaw s) (hd : debounceDue ch s = true)
    (hc : s.chan ch = .edge c) : c.debounce ≠ 0 ∨ s.engine.nextBoundary ≠ some s.now := by
  simp only [debounceDue, hc, Bool.and_eq_true, Bool.or_eq_true, bne_iff_ne, instantOver, Bool.not_eq_true',
    Option.isNone_iff_eq_none] at hd
  obtain ⟨hw, ⟨⟨-, htime | ⟨⟨⟨hboundary, -⟩, -⟩, -⟩⟩, -⟩, -⟩ := hd
  · exact .inl htime
  · refine .inr fun hn => ?_
    have running : s.engine.state = .running := by
      by_contra hs
      rw [nextBoundary_halted he hs] at hn
      cases hn
    simp [boundaryDue, hw, running, hn] at hboundary

theorem channelLaw_eventEffect {s u : State} (he : EngineLaw s) (hb : BoundaryAhead s) (h : ChannelLaw s) (e : EventEffect s u) :
    ChannelLaw u := by
  obtain ⟨hlaw, hclaims⟩ := channelLaw_iff.1 h
  cases e with
  | cycles hs hf =>
    exact channelLaw_iff.2 ⟨fun ch => lawful_stampAtBoundary he (hlaw ch) _ _, claims_stampAtBoundary hclaims _⟩
  | firstCycle hs hm => exact channelLaw_later h (by simp [nextBoundary_halted he, hs]) rfl
  | stops hs => exact channelLaw_entersStopped he h false
  | fires hf hh => exact channelLaw_congr (channelLaw_handedOff he h hh) rfl rfl rfl
  | endsOn hd => exact channelLaw_setChan h (claim_onBurst (f := BurstChan.endOn s.now) (fun _ => rfl) _) (lawful_endOn (hlaw _) _)
  | endsOff hd => exact channelLaw_setChan h (claim_onBurst (endOff_cfg _) _) (lawful_endOff (hlaw _) _)
  | samplesLines levels hw =>
    have offset := stamp_offset_fits he hb
    have sampled := channelLaw_mapRecords h fun ch => sampled_kept (hlaw ch) rfl offset levels
    exact channelLaw_congr sampled rfl rfl rfl
  | @confirms ch c hd hc =>
    have hl := hlaw ch
    rw [hc] at hl
    obtain ⟨hl', hcfg, -⟩ := EdgeChan.Lawful.confirmDue hl (debounceDue_later he hd hc) ch (c.cfg.run.read s.pins.lines)
    exact channelLaw_setChan h ((claim_edge hcfg).trans (by rw [hc])) hl'
  | causes c hw => exact channelLaw_applyCause h c
  | softReset hw => exact channelLaw_softReset s
  | resetBegins ht =>
    cases ht
    exact channelLaw_cleared rfl
  | resetEnds hw ht =>
    rw [exec_hardwareResetEnd hw] at ht
    cases ht
    exact channelLaw_cleared rfl
  | _ => exact channelLaw_congr h rfl rfl rfl

/-- The three laws together read the blocks beside the link and the Notice Unit. -/
theorem channelsContext_blockLaw : BlockLaw fun s => EngineLaw s ∧ BoundaryAhead s ∧ ChannelLaw s :=
    fun ⟨he, hb, h⟩ blocks => by
  have chans : _ = _ := congrArg State.chans blocks
  have now : _ = _ := congrArg State.now blocks
  have next : _ = _ := congrArg (fun b : State => b.engine.nextBoundary) blocks
  exact ⟨engineLaw_blockLaw he blocks, boundaryAhead_congr hb now next, channelLaw_congr h chans now next⟩

/-- The channel law is kept together with the engine law and the next boundary ahead, which bound the cycle times of its stamps. -/
theorem channelLaw_survives : SurvivesSteps fun s => EngineLaw s ∧ BoundaryAhead s ∧ ChannelLaw s where
  moves := fun h hm => channelsContext_blockLaw h hm.1
  requests kind body s := fun ⟨he, hb, h⟩ => by
    obtain ⟨u, e, hm⟩ := carryOf_effect kind body s
    have kept : EngineLaw u ∧ BoundaryAhead u ∧ ChannelLaw u :=
      ⟨engineLaw_requestEffect he e, boundaryAhead_requestEffect hb e, channelLaw_requestEffect he h e⟩
    exact channelsContext_blockLaw kept hm.1
  events := fun ⟨he, hb, h⟩ e => ⟨engineLaw_eventEffect he e, boundaryAhead_eventEffect hb e, channelLaw_eventEffect he hb h e⟩
  counts := fun ⟨he, hb, h⟩ hw hd =>
    have later := nextBoundary_ne_now_of_idle he hw hd
    ⟨he.congr rfl rfl rfl, notPast_succ hb later, channelLaw_later h later rfl⟩

/-- Settles O55: every effect of a request or an event keeps the law, under the engine law and with the next boundary ahead. -/
theorem channelLawKept : Obligations.ChannelLawKept := by
  rintro s t he ⟨-, ahead, -⟩ h hstep
  obtain ⟨-, -, kept⟩ := channelLaw_survives.step ⟨he, ahead, h⟩ hstep
  exact kept

end Sys2Proof.Machine
end

section
/-! PROOFS. A hardware reset begins by HARDWARE_RESET_BEGIN alone (R181): whatever else a command or a step does, the part stays
powered. -/

namespace Sys2Proof.Machine

/-! ### What keeps the part powered -/

theorem hwReset_of_blocks {s t : State} (h : t.blocks = s.blocks) : t.hwReset = s.hwReset := by
  show t.blocks.hwReset = s.blocks.hwReset
  rw [h]

theorem LinkMoves.hwReset {s t : State} (h : LinkMoves s t) : t.hwReset = s.hwReset := hwReset_of_blocks h.1

theorem blockLaw_hwReset (w : Option ResetCause) : BlockLaw fun s => s.hwReset = w :=
  fun h hb => (hwReset_of_blocks hb).trans h

@[simp] theorem hwReset_applyCause (c : Cause) (s : State) : (applyCause c s).hwReset = s.hwReset := by
  unfold applyCause
  split
  · rfl
  · simp only [raise_hwReset]

theorem RequestEffect.hwReset {s u : State} (e : RequestEffect s u) : u.hwReset = s.hwReset := by
  cases e with
  | causes => exact hwReset_applyCause _ s
  | _ => rfl

theorem carryOf_keeps_hwReset (kind : Byte) (w : Option ResetCause) : (carryOf kind).Keeps fun s => s.hwReset = w := by
  intro body s h
  obtain ⟨u, e, hm⟩ := carryOf_effect kind body s
  exact (hm.hwReset.trans e.hwReset).trans h

theorem hwReset_dispatch (f : Frame) (kind : Byte) (s : State) : (dispatch f (carryOf kind) s).hwReset = s.hwReset :=
  dispatch_keeps (blockLaw_hwReset _) (carryOf_keeps_hwReset kind _) f rfl

theorem hwReset_serveHeld (s : State) : (serveHeld s).hwReset = s.hwReset := by
  unfold serveHeld
  split
  · exact serve_keeps (blockLaw_hwReset _) (carryOf_keeps_hwReset _ _) _ rfl
  · rfl

/-! ### Characters -/

theorem hwReset_offerRequest (f : Frame) (s : State) : (offerRequest f s).hwReset = s.hwReset := by
  unfold offerRequest
  split
  · exact (linkMoves_linkError s).hwReset
  · dsimp only
    split
    · exact (linkMoves_arbitrateAfter _ _).hwReset.trans (hwReset_serveHeld _)
    · rfl

theorem hwReset_judgeFrame (f : Frame) (received : Nat) (s : State) : (judgeFrame f received s).hwReset = s.hwReset := by
  unfold judgeFrame
  dsimp only
  split
  · exact (linkMoves_linkError _).hwReset
  · split
    · exact (linkMoves_linkError _).hwReset
    · split
      · exact ((linkMoves_takeAck _ _).trans (linkMoves_arbitrate _)).hwReset
      · exact hwReset_offerRequest f _

theorem hwReset_receiveByte (b : Byte) (s : State) : (receiveByte b s).hwReset = s.hwReset := by
  unfold receiveByte
  dsimp only
  split
  · rfl
  · exact (linkMoves_linkError _).hwReset
  · exact hwReset_judgeFrame _ _ _

theorem hwReset_receiveFaulty (s : State) : (receiveFaulty s).hwReset = s.hwReset := by
  unfold receiveFaulty
  dsimp only
  split
  · rfl
  · exact (linkMoves_abandon _).hwReset

theorem onCharacter_powered {f : State → State} (hf : ∀ u, (f u).hwReset = u.hwReset) {s : State} (hw : s.hwReset = none) :
    Answers (fun t => t.hwReset = none) (onCharacter f s) := by
  refine answers_whenPowered hw fun _ => ?_
  split
  · exact hw
  · exact (hf _).trans hw
  · exact (hf _).trans hw

/-! ### Boundaries, steps and the soft reset -/

theorem hwReset_handOn (s : State) : (handOn s).hwReset = s.hwReset := by
  rw [handOn_eq]
  exact (linkMoves_raiseAll _ _).hwReset

theorem hwReset_boundary (flywheel : Bool) (source : Option NoticeKind) (s : State) :
    (boundary flywheel source s).hwReset = s.hwReset := by
  unfold boundary
  split
  · rw [stopAtBoundary_eq]
    exact (linkMoves_raiseAll _ _).hwReset
  · rw [newCycle_eq, hwReset_handOn]
    cases source <;> exact (linkMoves_takeRaised s).hwReset

theorem hwReset_risingEdge (s : State) : (risingEdge s).hwReset = s.hwReset := by
  unfold risingEdge
  split
  · exact hwReset_handOn _
  · split <;> exact hwReset_boundary _ _ s
  · rfl

theorem stepFire_powered {s : State} (hw : s.hwReset = none) : Answers (fun t => t.hwReset = none) (execStepFire s) := by
  unfold execStepFire
  split
  · exact answers_next hw
  · split
    · exact answers_next hw
    · exact fun t ht => nomatch ht
    · split
      · unfold fireStep
        split
        · exact fun t ht => nomatch ht
        · next ho =>
          obtain ⟨chans, -, hm⟩ := handOff_handedOff ho
          exact answers_next (((hm.withWalk _ _).trans (linkMoves_settleFirings _)).hwReset.trans hw)
      · exact answers_next hw

theorem hwReset_confirmChannel (ch : ChanIx) (s : State) : (confirmChannel ch s).hwReset = s.hwReset := by
  unfold confirmChannel
  split
  · exact (linkMoves_raiseAll _ _).hwReset
  · rfl

theorem hwReset_announceReset (cause : Byte) (s : State) : (announceReset cause s).hwReset = s.hwReset := by
  unfold announceReset
  dsimp only
  split
  · exact hwReset_applyCause _ _
  · rfl

theorem replySent_powered {s : State} (hw : s.hwReset = none) : Answers (fun t => t.hwReset = none) (execReplySent s) := by
  refine answers_ite (fun _ => ?_) hw
  dsimp only
  split
  · exact ((linkMoves_arbitrate _).hwReset.trans ((hwReset_serveHeld _).trans (hwReset_announceReset _ _))).trans hw
  · exact ((linkMoves_arbitrateAfter _ _).hwReset.trans
      ((hwReset_serveHeld _).trans (linkMoves_maybeSendBefore _).hwReset)).trans hw

/-! ### All commands -/

/-- No other command begins a hardware reset (R181). -/
theorem exec_powered {s : State} (hw : s.hwReset = none) {c : Instr} (hb : ∀ cause, c ≠ .hardwareResetBegin cause) :
    Answers (fun t => t.hwReset = none) (exec c s) := by
  have asked : ∀ {u : State}, u.hwReset = none → (arbitrate u).hwReset = none := (linkMoves_arbitrate _).hwReset.trans
  cases hf : requestFrame? c with
  | some f =>
    rw [exec_request hf]
    exact answers_next ((hwReset_dispatch f f.kind s).trans hw)
  | none =>
    cases c
    case unknownKind seq kind body =>
      have hk : ¬ unknownKindCode kind = true := by simpa [requestFrame?] using hf
      show Answers _ (execUnknownKind seq kind body s)
      rw [execUnknownKind, if_neg hk]
      exact answers_next hw
    case requestFrameReceived b => exact onCharacter_powered (hwReset_receiveByte b) hw
    case ack b => exact onCharacter_powered (hwReset_receiveByte b) hw
    case frameDiscarded b => exact onCharacter_powered (hwReset_receiveByte b) hw
    case lengthByteAbove240 b => exact onCharacter_powered (hwReset_receiveByte b) hw
    case byteTaken b => exact onCharacter_powered (hwReset_receiveByte b) hw
    case framingError => exact onCharacter_powered hwReset_receiveFaulty hw
    case gapLimit => exact answers_ite (fun _ => (linkMoves_abandon s).hwReset.trans hw) hw
    case replySent => exact replySent_powered hw
    case noticeFrameSent => exact answers_ite (fun _ => asked hw) hw
    case hardwareResetBegin cause => exact absurd rfl (hb cause)
    case hardwareResetEnd samples midCharacter =>
      show Answers _ (execHardwareResetEnd samples midCharacter s)
      unfold execHardwareResetEnd
      rw [hw]
      exact answers_next hw
    case periodBoundary => exact answers_ite (fun _ => asked ((hwReset_boundary _ _ s).trans hw)) hw
    case syncRisingEdge =>
      refine answers_whenPowered hw fun _ => ?_
      split
      · exact hw
      · exact asked ((hwReset_risingEdge _).trans hw)
    case syncDeadline => exact answers_ite (fun _ => asked ((hwReset_boundary _ _ s).trans hw)) hw
    case flywheelBoundary => exact answers_ite (fun _ => asked ((hwReset_boundary _ _ s).trans hw)) hw
    case stepFire => exact stepFire_powered hw
    case burstOnPhaseEnd ch => exact answers_ite (fun _ => hw) hw
    case burstOffPhaseEnd ch => exact answers_ite (fun _ => hw) hw
    case edgeLineChange levels => exact answers_whenPowered hw fun _ => hw
    case debounceConfirmed ch => exact answers_ite (fun _ => asked ((hwReset_confirmChannel ch s).trans hw)) hw
    case nstopLow =>
      refine answers_whenPowered hw fun _ => ?_
      dsimp only
      split
      · exact hw
      · exact asked ((hwReset_applyCause _ _).trans hw)
    case nstopHigh => exact answers_whenPowered hw fun _ => hw
    case silenceTimerExpiry => exact answers_ite (fun _ => asked ((hwReset_applyCause _ _).trans hw)) hw
    case retransmitTimerExpiry => exact answers_ite (fun _ => asked hw) hw
    case syncFallingEdge => exact answers_whenPowered hw fun _ => hw
    all_goals cases hf

/-- The state with other levels at the field lines, and other commands waiting. -/
def State.waitingWith (lines : BitVec 32) (pending : List Instr) (s : State) : State :=
  { s with pins := { s.pins with lines := lines }, pending := pending }

/-- A command that leaves a hardware reset in progress has begun it, or has moved the levels of the field lines at most (R181). -/
theorem exec_leavesReset {s t : State} {c : Instr} (h : exec c s = .next t) (ht : t.hwReset ≠ none) :
    (∃ cause, c = .hardwareResetBegin cause) ∨ (s.hwReset ≠ none ∧ ∃ lines, t = s.waitingWith lines s.pending) := by
  by_cases hb : ∃ cause, c = .hardwareResetBegin cause
  · exact .inl hb
  · have hw : s.hwReset ≠ none := fun hw => ht (exec_powered hw (not_exists.1 hb) t h)
    obtain ⟨cause, hcause⟩ := Option.ne_none_iff_exists'.1 hw
    obtain ⟨-, hend, hduring, -⟩ := hardwareResets s
    obtain ⟨hlines, hother⟩ := hduring cause hcause
    refine .inr ⟨hw, ?_⟩
    by_cases hl : ∃ levels, c = .edgeLineChange levels
    · obtain ⟨levels, rfl⟩ := hl
      rw [hlines] at h
      cases h
      exact ⟨levels, rfl⟩
    · by_cases he : ∃ samples midCharacter, c = .hardwareResetEnd samples midCharacter
      · obtain ⟨⟨nstop, sync⟩, midCharacter, rfl⟩ := he
        rw [hend cause nstop sync midCharacter hcause] at h
        cases h
        exact absurd rfl ht
      · rw [hother c (not_exists.1 hl) (not_exists.1 hb) fun samples mid hc => he ⟨samples, mid, hc⟩] at h
        cases h
        exact ⟨s.pins.lines, rfl⟩

theorem hwReset_idle (s : State) : (idle s).hwReset = s.hwReset := by
  unfold idle
  split
  · rfl
  · split
    · exact (linkMoves_takeRaised s).hwReset
    · split
      · exact (linkMoves_arbitrate s).hwReset
      · rfl

/-- A step that leaves a hardware reset in progress has begun it, or has moved the levels of the field lines at most (R181). -/
theorem step_leavesReset {s t : State} (h : step s = .next t) (ht : t.hwReset ≠ none) :
    (∃ cause u, exec (.hardwareResetBegin cause) u = .next t) ∨
      (s.hwReset ≠ none ∧ ∃ lines pending, t = s.waitingWith lines pending) := by
  cases hp : s.pending with
  | cons c rest =>
    simp only [step, hp] at h
    obtain ⟨cause, rfl⟩ | ⟨hw, lines, rfl⟩ := exec_leavesReset h ht
    · exact .inl ⟨cause, _, h⟩
    · exact .inr ⟨hw, lines, rest, rfl⟩
  | nil =>
    have empty : s.hwReset ≠ none → dueEvents s = [] := fun hw => dueEvents_hwReset (Option.isSome_iff_ne_none.2 hw)
    by_cases hd : dueEvents s = []
    · rw [step_idle hp hd] at h
      cases h
      have hw : s.hwReset ≠ none := by rwa [hwReset_idle] at ht
      rw [idle_hwReset (Option.isSome_iff_ne_none.2 hw)]
      exact .inr ⟨hw, s.pins.lines, s.pending, rfl⟩
    · obtain ⟨c, n, -, hexec⟩ := step_due hp hd
      obtain ⟨cause, rfl⟩ | ⟨hw, -⟩ := exec_leavesReset (hexec.symm.trans h) ht
      · exact .inl ⟨cause, _, hexec.symm.trans h⟩
      · exact absurd (empty hw) hd

end Sys2Proof.Machine
end

section
/-! PROOFS. The safe law (R94, R128, R129, R181) is kept by every step: SAFE, its causes and SAFEOUT, and the outputs at their safe
values. -/

namespace Sys2Proof.Machine

/-! ### The parts of the law -/

/-- SAFE is set exactly while there is a cause, and SAFEOUT shows it (R128, R129). -/
def SafeControl.Agrees (c : SafeControl) : Prop := (c.safe = true ↔ c.causes ≠ CauseSet.none) ∧ c.safeOut = safeOutFor c.safe

/-- What the safe law says of one channel: at its safe value while SAFE is set (R94, R129). -/
def Channel.SafeWhile (safe : Bool) (c : Channel) : Prop := safe = true → c.atSafe = true

/-- What the safe law says while the part is powered. -/
def SafeHolds (s : State) : Prop := s.safe.Agrees ∧ ∀ ch, (s.chan ch).SafeWhile s.safe.safe

theorem safeLaw_iff {s : State} (hw : s.hwReset = none) : SafeLaw s ↔ SafeHolds s := by
  constructor
  · rintro ⟨hcauses, hout, -, houtputs⟩
    exact ⟨⟨hcauses, hout hw⟩, fun ch hset => houtputs hset ch⟩
  · rintro ⟨⟨hcauses, hout⟩, houtputs⟩
    exact ⟨hcauses, fun _ => hout, fun hr => absurd hw hr, fun hset ch => houtputs ch hset⟩

/-- During a hardware reset the law reads the Safe-State Controller alone (R129, R181). -/
theorem safeLaw_inReset {s t : State} (h : SafeLaw s) (hs : s.hwReset ≠ none) (ht : t.hwReset ≠ none) (hc : t.safe = s.safe) :
    SafeLaw t := by
  obtain ⟨hcauses, -, hreset, -⟩ := h
  obtain ⟨hsafe, hout⟩ := hreset hs
  refine ⟨by rw [hc]; exact hcauses, fun hw => absurd hw ht, fun _ => by rw [hc]; exact ⟨hsafe, hout⟩, fun hset => ?_⟩
  rw [hc, hsafe] at hset
  cases hset

theorem safeHolds_congr {s t : State} (h : SafeHolds s) (hs : t.safe = s.safe) (hc : t.chans = s.chans) : SafeHolds t := by
  unfold SafeHolds State.chan at h ⊢
  rw [hs, hc]
  exact h

theorem safeHolds_blockLaw : BlockLaw SafeHolds := fun {s t} h hb => by
  have congrBlocks : SafeHolds t.blocks := by
    rw [hb]
    exact safeHolds_congr h rfl rfl
  exact safeHolds_congr congrBlocks rfl rfl

/-! ### One channel at its safe value -/

/-- An output at its safe value has no burst in flight (R94). -/
theorem burst?_of_atSafe {c : Channel} (h : c.atSafe = true) : c.burst? = none := by
  cases c with
  | burst c =>
    simp only [Channel.atSafe, Bool.and_eq_true, Option.isNone_iff_eq_none] at h
    exact h.2
  | _ => rfl

theorem atSafe_toSafe (c : Channel) : c.toSafe.atSafe = true := by
  cases c <;> simp [Channel.toSafe, Channel.atSafe]

/-- A STOP NOW finds no burst to cut on an output at its safe value (R102). -/
theorem cutBurst_of_atSafe {c : Channel} (h : c.atSafe = true) : c.cutBurst = c := by
  have ended := burst?_of_atSafe h
  cases c with
  | burst c =>
    rw [cutBurst_burst, show c.burst = none from ended]
    rfl
  | _ => rfl

theorem closeWindow_atSafe (c : Channel) : c.closeWindow.atSafe = c.atSafe := by
  cases c with
  | edge c =>
    rw [closeWindow_edge]
    rfl
  | _ => rfl

theorem safeWhile_atStop {c : Channel} {safe : Bool} (h : c.SafeWhile safe) (now : Bool) : (c.atStop now).SafeWhile safe := by
  intro hset
  cases now with
  | false => exact (closeWindow_atSafe c).trans (h hset)
  | true =>
    show c.cutBurst.closeWindow.atSafe = true
    rw [closeWindow_atSafe, cutBurst_of_atSafe (h hset)]
    exact h hset

/-- A channel is configured at its safe value while SAFE is set (R73). -/
theorem safeWhile_install (setup : Setup) (safe : Bool) (lines : BitVec 32) : (setup.install safe lines).SafeWhile safe := by
  rintro rfl
  cases setup <;> simp [Setup.install, Channel.atSafe, OutConfig.initial]

/-- A change that keeps the values and the burst of an output. -/
theorem safeWhile_of_eq {c d : Channel} {safe : Bool} (h : c.SafeWhile safe) (hd : d.atSafe = c.atSafe) : d.SafeWhile safe :=
  fun hset => hd.trans (h hset)

theorem safeWhile_channelRequest {s : State} {ch : ChanIx} {c : Channel} {safe : Bool} (h : (s.chan ch).SafeWhile safe)
    (e : ChannelRequest s ch c) : c.SafeWhile safe := by
  cases e with
  | clears => exact safeWhile_of_eq h (by cases s.chan ch <;> rfl)
  | flushes => exact safeWhile_of_eq h (by cases s.chan ch <;> rfl)
  | putsLevels rs hc => exact safeWhile_of_eq h (by rw [hc]; rfl)
  | putsBursts hc hr => exact safeWhile_of_eq h (by rw [hc]; rfl)
  | resets select hc hd => exact fun _ => rfl
  | takesSamples n hc => exact fun _ => rfl
  | takesEdges n hc => exact fun _ => rfl

/-- While SAFE is set no EMIT reaches a channel (R98), and no other hand-off moves an output. -/
theorem safeWhile_handedOff {s : State} {p : SlotIx} {st : Step} {chans : ChannelTable}
    (h : ∀ ch, (s.chan ch).SafeWhile s.safe.safe) (e : HandedOff s p st chans) (ch : ChanIx) :
    (chans.records.get ch).SafeWhile s.safe.safe := by
  have unset : s.safe.safe = false → ∀ c : Channel, c.SafeWhile s.safe.safe := fun hs c hset => by
    rw [hs] at hset
    cases hset
  cases e with
  | unchanged => exact h ch
  | emitsLevel ha hc hs => exact unset hs _
  | emitsBurst ha hc hs => exact unset hs _
  | samples ha hc => exact forall_setChan (Q := Channel.SafeWhile _) h (fun _ => rfl) ch
  | opens ha hc => exact forall_setChan (Q := Channel.SafeWhile _) h (fun _ => rfl) ch
  | closes ha hc => exact forall_setChan (Q := Channel.SafeWhile _) h (fun _ => closeWindow_atSafe _) ch

/-! ### Requests -/

theorem safeHolds_setChan {s : State} (h : SafeHolds s) {ch : ChanIx} {c : Channel} (hc : c.SafeWhile s.safe.safe) :
    SafeHolds (s.setChan ch c) := ⟨h.1, forall_setChan (Q := Channel.SafeWhile _) h.2 hc⟩

theorem safeHolds_replace {s : State} (h : SafeHolds s) (ch : ChanIx) {c : Channel} (hc : c.SafeWhile s.safe.safe) :
    SafeHolds { s with chans := s.chans.replace ch c } := ⟨h.1, forall_replace (Q := Channel.SafeWhile _) h.2 hc⟩

theorem safeHolds_entersStopped {s : State} (h : SafeHolds s) (now : Bool) : SafeHolds (s.entersStopped now) :=
  ⟨h.1, forall_mapRecords (Q' := Channel.SafeWhile s.safe.safe) h.2 fun _ hc => safeWhile_atStop hc now⟩

theorem causes_add_ne_none (c : Cause) (causes : CauseSet) : causes.add c ≠ CauseSet.none := by
  cases c <;> simp [CauseSet.add, CauseSet.none]

/-- A cause sets SAFE, or joins the set (R130, R131). -/
theorem safeHolds_applyCause {s : State} (h : SafeHolds s) (c : Cause) : SafeHolds (applyCause c s) := by
  obtain ⟨⟨-, hout⟩, houtputs⟩ := h
  unfold applyCause
  split
  · next hset => exact ⟨⟨iff_of_true hset (causes_add_ne_none c _), hout⟩, houtputs⟩
  · refine ⟨⟨iff_of_true rfl (causes_add_ne_none c _), rfl⟩, fun ch _ => ?_⟩
    show ((s.chans.mapRecords Channel.toSafe).records.get ch).atSafe = true
    rw [ChannelTable.mapRecords_get]
    exact atSafe_toSafe _

/-- With SAFE and every cause clear and SAFEOUT high, the outputs are free. -/
theorem safeHolds_clear {s : State} (hs : s.safe.safe = false) (hc : s.safe.causes = CauseSet.none) (ho : s.safe.safeOut = .high) :
    SafeHolds s := by
  refine ⟨⟨?_, ?_⟩, fun ch hset => ?_⟩
  · rw [hs, hc]
    simp
  · rw [hs, ho]
    rfl
  · rw [hs] at hset
    cases hset

theorem safeHolds_requestEffect {s u : State} (h : SafeHolds s) (e : RequestEffect s u) : SafeHolds u := by
  cases e with
  | stops now he => exact safeHolds_entersStopped h now
  | installs hset hr hl hd => exact safeHolds_replace h _ (safeWhile_install _ _ _)
  | releases hc hr => exact safeHolds_replace h _ fun _ => rfl
  | changes hc => exact safeHolds_setChan h (safeWhile_channelRequest (h.2 _) hc)
  | causes => exact safeHolds_applyCause h _
  | resumes hn => exact safeHolds_clear rfl rfl rfl
  | setsSilence hms => exact h
  | _ => exact safeHolds_congr h rfl rfl

/-! ### Events -/

/-- While SAFE is set there is no burst whose phase could end (R94). -/
theorem safeHolds_phaseEnd {s : State} (h : SafeHolds s) {phase : Phase} {ch : ChanIx} (hd : phaseDue phase ch s = true)
    (c : Channel) : SafeHolds (s.setChan ch c) := by
  refine safeHolds_setChan h fun hset => ?_
  simp [phaseDue, burst?_of_atSafe (h.2 ch hset)] at hd

theorem safeHolds_announceReset {s : State} (h : SafeHolds s) (cause : Byte) : SafeHolds (announceReset cause s) := by
  have ready := safeHolds_blockLaw h (blocks_raise { kind := .ready, subject := some cause, detail := 0, cycle := 0 } s)
  unfold announceReset
  dsimp only
  split
  · exact safeHolds_applyCause ready _
  · exact ready

/-- After a hardware reset NSTOP decides on SAFE, and every channel is free (R82, R139). -/
theorem safeHolds_afterReset {s : State} {nstop : Level} (hs : s.safe.safe = (nstop == .low))
    (hc : s.safe.causes = stopLineCauses nstop) (ho : s.safe.safeOut = if nstop = .low then .low else .high)
    (ht : s.chans = ChannelTable.afterReset) : SafeHolds s := by
  refine ⟨⟨?_, ?_⟩, fun ch _ => ?_⟩
  · rw [hs, hc]
    cases nstop <;> decide
  · rw [hs, ho]
    cases nstop <;> rfl
  · rw [State.chan, ht, records_afterReset]
    rfl

theorem safeHolds_stampAtBoundary {s : State} (h : SafeHolds s) (cycle : CycleNo) :
    SafeHolds { s with chans := stampAtBoundary cycle s } := by
  have stamped : ∀ c : Channel, (c.restamp s.now cycle).atSafe = c.atSafe := fun c => by cases c <;> rfl
  unfold stampAtBoundary
  split
  · exact h
  · exact ⟨h.1, forall_mapRecords (Q' := Channel.SafeWhile s.safe.safe) h.2 fun c hc => safeWhile_of_eq hc (stamped c)⟩

/-- Every event that leaves the part powered leaves what the law says of a powered part. -/
theorem safeHolds_eventEffect {s u : State} (h : s.hwReset = none → SafeHolds s) (e : EventEffect s u) (hu : u.hwReset = none) :
    SafeHolds u := by
  cases e with
  | cycles hs hf => exact safeHolds_congr (safeHolds_stampAtBoundary (h hu) _) rfl rfl
  | stops hs => exact safeHolds_entersStopped (h hu) false
  | fires hf hh =>
    obtain ⟨hagrees, houtputs⟩ := h hu
    exact ⟨hagrees, safeWhile_handedOff (s := s) houtputs hh⟩
  | endsOn hd => exact safeHolds_phaseEnd (h hu) hd _
  | endsOff hd => exact safeHolds_phaseEnd (h hu) hd _
  | samplesLines levels hw =>
    have held := h hw
    have sampled : ∀ c : Channel, (c.sampled s.stamp levels).atSafe = c.atSafe := fun c => by cases c <;> rfl
    exact ⟨held.1, forall_mapRecords (Q' := Channel.SafeWhile s.safe.safe) held.2 fun c hc => safeWhile_of_eq hc (sampled c)⟩
  | confirms hd hc => exact safeHolds_setChan (h hu) fun _ => rfl
  | causes c hw => exact safeHolds_applyCause (h hw) c
  | softReset hw => exact safeHolds_announceReset (safeHolds_clear rfl rfl rfl) 2
  | resetBegins ht =>
    cases ht
    cases hu
  | resetEnds hw ht =>
    rw [exec_hardwareResetEnd hw] at ht
    cases ht
    exact safeHolds_afterReset rfl rfl rfl rfl
  | samplesNstop l => exact h hu
  | silenceEnds hd => exact h hu
  | silenceRestarts => exact h hu
  | _ => exact safeHolds_congr (h hu) rfl rfl

/-! ### All steps -/

theorem safeHolds_survives : SurvivesSteps fun s => s.hwReset = none → SafeHolds s where
  moves h hm ht := safeHolds_blockLaw (h (hm.hwReset.symm.trans ht)) hm.1
  requests kind body s h ht := by
    obtain ⟨u, e, hm⟩ := carryOf_effect kind body s
    have hw : s.hwReset = none := (e.hwReset.symm.trans hm.hwReset.symm).trans ht
    exact safeHolds_blockLaw (safeHolds_requestEffect (h hw) e) hm.1
  events h e := safeHolds_eventEffect h e
  counts h hw _ _ := safeHolds_congr (h hw) rfl rfl

/-- A hardware reset begins with SAFE and its causes clear and SAFEOUT low (R129, R181). -/
theorem safeLaw_resetBegins {s t : State} {cause : ResetCause} (h : exec (.hardwareResetBegin cause) s = .next t) :
    SafeLaw t := by
  cases h
  exact ⟨iff_of_false Bool.false_ne_true (not_not.2 rfl), nofun, fun _ => ⟨rfl, rfl⟩, nofun⟩

/-- Settles O56: every effect of a request or an event keeps the law of a powered part, and a hardware reset leaves the Safe-State
Controller as it began. -/
theorem safeLawKept : Obligations.SafeLawKept := by
  intro s t h hstep
  by_cases ht : t.hwReset = none
  · exact (safeLaw_iff ht).2 (safeHolds_survives.step (fun hw => (safeLaw_iff hw).1 h) hstep ht)
  · obtain ⟨cause, u, hexec⟩ | ⟨hw, lines, pending, rfl⟩ := step_leavesReset hstep ht
    · exact safeLaw_resetBegins hexec
    · exact safeLaw_inReset h hw ht rfl

end Sys2Proof.Machine
end

section
/-! PROOFS. QUEUE_PUT (R85 to R88): reading the records of its body, and its outcome for each kind of channel. -/

namespace Sys2Proof.Machine

/-! ### The channel that a QUEUE_PUT names (R86) -/

section Named

variable {ch : ChanIx} {rest : List Byte} {s : State}

/-- A body of a length that the common check allows (R86). -/
theorem putLength_allowed {chB : Byte} (hmin : 1 ≤ rest.length) (hmax : rest.length ≤ 112) :
    ¬ ((chB :: rest).length < 2 ∨ 113 < (chB :: rest).length) := by
  rw [List.length_cons]
  omega

theorem carryQueuePut_badChannel {chB : Byte} (hmin : 1 ≤ rest.length) (hmax : rest.length ≤ 112) (hb : 15 < chB.toNat) :
    carryQueuePut (chB :: rest) s = answer statusBadValue s := by
  rw [carryQueuePut, if_neg (putLength_allowed hmin hmax), chanAt_none (show 15 < natAt (chB :: rest) 0 from hb)]

variable (hmin : 1 ≤ rest.length) (hmax : rest.length ≤ 112)
include hmin hmax

theorem carryQueuePut_free (hc : s.chan ch = .free) : carryQueuePut (ixByte ch :: rest) s = answer statusNotConfigured s := by
  rw [carryQueuePut, if_neg (putLength_allowed hmin hmax), chanAt_of_ixByte (ch := ch) rfl]
  simp only [hc]

theorem carryQueuePut_sample {c : SampleChan} (hc : s.chan ch = .sample c) :
    carryQueuePut (ixByte ch :: rest) s = answer statusKind s := by
  rw [carryQueuePut, if_neg (putLength_allowed hmin hmax), chanAt_of_ixByte (ch := ch) rfl]
  simp only [hc]

theorem carryQueuePut_edge {c : EdgeChan} (hc : s.chan ch = .edge c) :
    carryQueuePut (ixByte ch :: rest) s = answer statusKind s := by
  rw [carryQueuePut, if_neg (putLength_allowed hmin hmax), chanAt_of_ixByte (ch := ch) rfl]
  simp only [hc]

theorem carryQueuePut_level {c : LevelChan} (hc : s.chan ch = .level c) :
    carryQueuePut (ixByte ch :: rest) s = putLevels ch c (ixByte ch :: rest) s := by
  rw [carryQueuePut, if_neg (putLength_allowed hmin hmax), chanAt_of_ixByte (ch := ch) rfl]
  simp only [hc]

theorem carryQueuePut_burst {c : BurstChan} (hc : s.chan ch = .burst c) :
    carryQueuePut (ixByte ch :: rest) s = putBursts ch c (ixByte ch :: rest) s := by
  rw [carryQueuePut, if_neg (putLength_allowed hmin hmax), chanAt_of_ixByte (ch := ch) rfl]
  simp only [hc]

end Named

/-! ### LEVEL records (R85 to R87) -/

/-- The fill once the first `min n (depth - fill)` of `n` records have joined a queue (R87). -/
theorem length_queue_put {α : Type} (q rs : List α) (depth : Nat) :
    (q ++ rs.take (min rs.length (depth - q.length))).length = q.length + min rs.length (depth - q.length) := by
  rw [List.length_append, List.length_take]
  omega

theorem putLevels_accepted {chB : Byte} {values : List Byte} (hmin : 1 ≤ values.length) (hmax : values.length ≤ 16)
    (ch : ChanIx) (c : LevelChan) (s : State) :
    putLevels ch c (chB :: values) s =
      ({ s.setChan ch (.level { c with
            queue := c.queue ++ (values.take (min values.length (c.cfg.depth - c.queue.length))).map (maskTo c.cfg.run.width) })
          with putAt := some (s.now, ch) },
        putReply (min values.length (c.cfg.depth - c.queue.length)) values.length
          (c.queue.length + min values.length (c.cfg.depth - c.queue.length))) := by
  have fill := length_queue_put c.queue (values.map (maskTo c.cfg.run.width)) c.cfg.depth
  rw [List.length_map, ← List.map_take] at fill
  rw [← fill]
  exact if_neg (by rw [List.tail_cons]; omega)

theorem putLevels_tooMany {chB : Byte} {values : List Byte} (h : 16 < values.length) (ch : ChanIx) (c : LevelChan)
    (s : State) :
    putLevels ch c (chB :: values) s = answer statusBadLength s := if_pos (.inr h)

/-- Settles O32: the records that there is room for join the tail, and the reply counts them. -/
theorem queuePutLevels : Obligations.QueuePutLevels := by
  intro seq ch c values s hmin hmax hc h k
  exact exec_answered rfl h
    ((carryQueuePut_level (s := s.taken) hmin (by omega) hc).trans (putLevels_accepted hmin hmax ch c s.taken)) rfl

/-! ### BURST records (R85, section 12.6) -/

/-- A byte of a record behind what stands before it. -/
theorem byteAt_append (front back : List Byte) (i : Nat) : byteAt (front ++ back) (front.length + i) = byteAt back i := by
  rw [byteAt, byteAt, List.getD_eq_getElem?_getD, List.getD_eq_getElem?_getD, List.getElem?_append_right (Nat.le_add_right _ _),
    Nat.add_sub_cancel_left]

theorem BurstRec.length_bytes (r : BurstRec) : r.bytes.length = 7 := rfl

theorem length_flatMap_bytes (rs : List BurstRec) : (rs.flatMap BurstRec.bytes).length = 7 * rs.length := by
  simp [List.length_flatMap, BurstRec.length_bytes, Nat.mul_comm]

/-- A two-byte number reads back, but for what two bytes do not hold (R182). -/
theorem read16_of_le16 {body : List Byte} {i n : Nat} (hb : [byteAt body i, byteAt body (i + 1)] = le16 n) :
    read16 body i = n % 65536 := by
  simp only [le16, List.cons.injEq, and_true] at hb
  obtain ⟨low, high⟩ := hb
  simp only [read16, natAt, low, high, byteOf_toNat]
  omega

/-- The record that a BURST channel of a width makes of one in a QUEUE_PUT body (R86). -/
def BurstRec.masked (width : Nat) (r : BurstRec) : BurstRec := { r with active := maskTo width r.active }

/-- The fields of a record read back from its seven bytes. -/
theorem burstAt_bytes (width : Nat) (front back : List Byte) (r : BurstRec) :
    burstAt width (front ++ (r.bytes ++ back)) front.length =
      if r.count % 65536 = 0 ∨ r.onTime % 65536 = 0 ∨ r.offTime % 65536 = 0 then none
      else some { active := maskTo width r.active, count := r.count % 65536, onTime := r.onTime % 65536,
                  offTime := r.offTime % 65536 } := by
  have field : ∀ i, byteAt (front ++ (r.bytes ++ back)) (front.length + i) = byteAt (r.bytes ++ back) i := byteAt_append _ _
  have active : byteAt (front ++ (r.bytes ++ back)) front.length = r.active := field 0
  have count : read16 (front ++ (r.bytes ++ back)) (front.length + 1) = r.count % 65536 :=
    read16_of_le16 (by rw [Nat.add_assoc, field, field]; rfl)
  have onTime : read16 (front ++ (r.bytes ++ back)) (front.length + 3) = r.onTime % 65536 :=
    read16_of_le16 (by rw [Nat.add_assoc, field, field]; rfl)
  have offTime : read16 (front ++ (r.bytes ++ back)) (front.length + 5) = r.offTime % 65536 :=
    read16_of_le16 (by rw [Nat.add_assoc, field, field]; rfl)
  simp only [burstAt, active, count, onTime, offTime]

theorem burstAt_fitting {width : Nat} {r : BurstRec} (h : r.fits = true) (front back : List Byte) :
    burstAt width (front ++ (r.bytes ++ back)) front.length = some (r.masked width) := by
  simp only [BurstRec.fits, Bool.and_eq_true, decide_eq_true_eq] at h
  rw [burstAt_bytes, if_neg (by omega), BurstRec.masked]
  simp only [Nat.mod_eq_of_lt (show r.count < 65536 by omega), Nat.mod_eq_of_lt (show r.onTime < 65536 by omega),
    Nat.mod_eq_of_lt (show r.offTime < 65536 by omega)]

theorem burstAt_zero {width : Nat} {r : BurstRec} (h : r.count = 0 ∨ r.onTime = 0 ∨ r.offTime = 0) (front back : List Byte) :
    burstAt width (front ++ (r.bytes ++ back)) front.length = none := by
  rw [burstAt_bytes, if_pos (by omega)]

/-- A record that is read stands before those read behind it. -/
theorem burstsAt_succ_some {width n i : Nat} {body : List Byte} {r : BurstRec} {rs : List BurstRec}
    (hr : burstAt width body i = some r) (hrs : burstsAt width body n (i + 7) = some rs) :
    burstsAt width body (n + 1) i = some (r :: rs) := by
  rw [burstsAt, hr, hrs]

/-- One record out of range leaves them all unread (R86). -/
theorem burstsAt_succ_none {width n i : Nat} {body : List Byte}
    (h : burstAt width body i = none ∨ burstsAt width body n (i + 7) = none) : burstsAt width body (n + 1) i = none := by
  obtain h | h := h
  · rw [burstsAt, h]
  · rw [burstsAt, h]
    cases burstAt width body i <;> rfl

/-- What stands behind the first record of a body. -/
theorem flatMap_bytes_behind (front : List Byte) (r : BurstRec) (rs : List BurstRec) :
    front ++ (r :: rs).flatMap BurstRec.bytes = (front ++ r.bytes) ++ rs.flatMap BurstRec.bytes ∧
      front.length + 7 = (front ++ r.bytes).length := by
  rw [List.flatMap_cons, List.append_assoc, List.length_append, BurstRec.length_bytes]
  exact ⟨rfl, rfl⟩

/-- Records in their ranges read back, masked to the width (R86). -/
theorem burstsAt_fitting {width : Nat} {rs : List BurstRec} (h : ∀ r ∈ rs, r.fits = true) (front : List Byte) :
    burstsAt width (front ++ rs.flatMap BurstRec.bytes) rs.length front.length = some (rs.map (BurstRec.masked width)) := by
  induction rs generalizing front with
  | nil => rfl
  | cons r rs ih =>
    obtain ⟨hr, hrs⟩ := List.forall_mem_cons.1 h
    obtain ⟨behind, position⟩ := flatMap_bytes_behind front r rs
    refine burstsAt_succ_some (burstAt_fitting hr front _) ?_
    rw [behind, position]
    exact ih hrs _

/-- With a number of 0 in one record none is read (R86). -/
theorem burstsAt_zero {width : Nat} {rs : List BurstRec} (h : ∃ r ∈ rs, r.count = 0 ∨ r.onTime = 0 ∨ r.offTime = 0)
    (front : List Byte) : burstsAt width (front ++ rs.flatMap BurstRec.bytes) rs.length front.length = none := by
  induction rs generalizing front with
  | nil => simp at h
  | cons r rs ih =>
    obtain ⟨behind, position⟩ := flatMap_bytes_behind front r rs
    refine burstsAt_succ_none ?_
    obtain ⟨x, hx, hzero⟩ := h
    obtain rfl | hx := List.mem_cons.1 hx
    · exact .inl (burstAt_zero hzero front _)
    · rw [behind, position]
      exact .inr (ih ⟨x, hx, hzero⟩ _)

section Bursts

variable {ch : ChanIx} {c : BurstChan} {rs : List BurstRec} (chB : Byte) (s : State)

/-- A body of 1 to 16 BURST records that are not all in range (R86). -/
theorem putBursts_unread (hmin : 1 ≤ rs.length) (hmax : rs.length ≤ 16)
    (hread : burstsAt c.cfg.run.width (chB :: rs.flatMap BurstRec.bytes) rs.length 1 = none) :
    putBursts ch c (chB :: rs.flatMap BurstRec.bytes) s = answer statusBadValue s := by
  simp only [putBursts, List.length_cons, Nat.add_sub_cancel, length_flatMap_bytes,
    Nat.mul_div_cancel_left _ (Nat.zero_lt_succ 6), hread]
  exact if_neg (by omega)

/-- A body of 1 to 16 BURST records that are all in range (R86, R87). -/
theorem putBursts_read {read : List BurstRec} (hmin : 1 ≤ rs.length) (hmax : rs.length ≤ 16)
    (hread : burstsAt c.cfg.run.width (chB :: rs.flatMap BurstRec.bytes) rs.length 1 = some read) :
    putBursts ch c (chB :: rs.flatMap BurstRec.bytes) s =
      ({ s.setChan ch (.burst { c with queue := c.queue ++ read.take (min rs.length (c.cfg.depth - c.queue.length)) })
          with putAt := some (s.now, ch) },
        putReply (min rs.length (c.cfg.depth - c.queue.length)) rs.length
          (c.queue ++ read.take (min rs.length (c.cfg.depth - c.queue.length))).length) := by
  simp only [putBursts, List.length_cons, Nat.add_sub_cancel, length_flatMap_bytes,
    Nat.mul_div_cancel_left _ (Nat.zero_lt_succ 6), hread]
  exact if_neg (by omega)

theorem putBursts_accepted (hmin : 1 ≤ rs.length) (hmax : rs.length ≤ 16) (hr : ∀ r ∈ rs, r.fits = true) :
    putBursts ch c (chB :: rs.flatMap BurstRec.bytes) s =
      ({ s.setChan ch (.burst { c with
            queue := c.queue ++ (rs.take (min rs.length (c.cfg.depth - c.queue.length))).map (BurstRec.masked c.cfg.run.width) })
          with putAt := some (s.now, ch) },
        putReply (min rs.length (c.cfg.depth - c.queue.length)) rs.length
          (c.queue.length + min rs.length (c.cfg.depth - c.queue.length))) := by
  have fill := length_queue_put c.queue (rs.map (BurstRec.masked c.cfg.run.width)) c.cfg.depth
  rw [List.length_map] at fill
  rw [putBursts_read chB s hmin hmax (burstsAt_fitting hr [chB]), fill, List.map_take]

theorem putBursts_zero (hmin : 1 ≤ rs.length) (hmax : rs.length ≤ 16)
    (hr : ∃ r ∈ rs, r.count = 0 ∨ r.onTime = 0 ∨ r.offTime = 0) :
    putBursts ch c (chB :: rs.flatMap BurstRec.bytes) s = answer statusBadValue s :=
  putBursts_unread chB s hmin hmax (burstsAt_zero hr [chB])

theorem putBursts_badLength {rest : List Byte} (h : rest.length % 7 ≠ 0) :
    putBursts ch c (chB :: rest) s = answer statusBadLength s := if_pos (.inl h)

end Bursts

/-- Settles O33: the records read back from their bytes, or one with a number of 0 makes the request out of range. -/
theorem queuePutBursts : Obligations.QueuePutBursts := by
  intro seq ch c rs s hmin hmax hc body h k
  have length := length_flatMap_bytes rs
  have put := carryQueuePut_burst (s := s.taken) (rest := rs.flatMap BurstRec.bytes) (by omega) (by omega) hc
  exact ⟨fun hr => exec_answered rfl h (put.trans (putBursts_accepted _ s.taken hmin hmax hr)) rfl,
    fun hr => exec_answer rfl h (put.trans (putBursts_zero _ s.taken hmin hmax hr))⟩

/-! ### Refusals (R86) -/

/-- Settles O34: the checks in their order. -/
theorem queuePutRefusals : Obligations.QueuePutRefusals := by
  intro seq chB rest s hmin hmax h refusedWith
  refine ⟨fun hb => exec_answer rfl h (carryQueuePut_badChannel hmin hmax hb), ?_⟩
  rintro ch rfl
  refine ⟨fun hc => ?_, fun c hc => ?_, fun c hc => ?_, fun c hc hlong => ?_, fun c hc hpart => ?_⟩
  · exact exec_answer rfl h (carryQueuePut_free (s := s.taken) hmin hmax hc)
  · exact exec_answer rfl h (carryQueuePut_sample (s := s.taken) hmin hmax hc)
  · exact exec_answer rfl h (carryQueuePut_edge (s := s.taken) hmin hmax hc)
  · exact exec_answer rfl h ((carryQueuePut_level (s := s.taken) hmin hmax hc).trans (putLevels_tooMany hlong ch c s.taken))
  · exact exec_answer rfl h ((carryQueuePut_burst (s := s.taken) hmin hmax hc).trans (putBursts_badLength _ s.taken hpart))

end Sys2Proof.Machine
end

section
/-! PROOFS. The phases of a burst (R93), and the Safe-State Controller (chapter 7): the sources of a cause, RESUME and
SILENCE_SET. -/

namespace Sys2Proof.Machine

/-! ### The phases of a burst (R93) -/

theorem phaseDue_of_burst {ch : ChanIx} {c : BurstChan} {b : Burst} {s : State} (hw : s.hwReset = none)
    (hc : s.chan ch = .burst c) (hb : c.burst = some b) (he : b.phaseEnd = s.now) : phaseDue b.phase ch s = true := by
  simp [phaseDue, hw, hc, Channel.burst?, hb, he]

section PhaseEnd

variable {ch : ChanIx} {c : BurstChan} {s : State} (hc : s.chan ch = .burst c)
include hc

theorem exec_burstOnPhaseEnd (hd : phaseDue .on ch s = true) :
    exec (.burstOnPhaseEnd ch) s = .next (s.setChan ch (.burst (c.endOn s.now))) := by
  have ends : s.setChan ch ((s.chan ch).onBurst (BurstChan.endOn s.now)) = s.setChan ch (.burst (c.endOn s.now)) := by
    rw [hc, Channel.onBurst]
  exact congrArg Host.Outcome.next ((if_pos hd).trans ends)

theorem exec_burstOffPhaseEnd (hd : phaseDue .off ch s = true) :
    exec (.burstOffPhaseEnd ch) s = .next (s.setChan ch (.burst (c.endOff s.now))) := by
  have ends : s.setChan ch ((s.chan ch).onBurst (BurstChan.endOff s.now)) = s.setChan ch (.burst (c.endOff s.now)) := by
    rw [hc, Channel.onBurst]
  exact congrArg Host.Outcome.next ((if_pos hd).trans ends)

end PhaseEnd

/-- Settles O35: the end of the phase in progress, with the pulses that remain. -/
theorem burstPhaseEnds : Obligations.BurstPhaseEnds := by
  intro ch c b s hw hc hb he
  have due := phaseDue_of_burst hw hc hb he
  refine ⟨fun hp => ?_, fun hp hmore => ?_, fun hp hlast => ?_⟩ <;> rw [hp] at due
  · rw [exec_burstOnPhaseEnd hc due, BurstChan.endOn, hb]
    rfl
  · rw [exec_burstOffPhaseEnd hc due]
    simp only [BurstChan.endOff, hb, if_neg (Nat.not_le.2 hmore)]
  · rw [exec_burstOffPhaseEnd hc due]
    simp only [BurstChan.endOff, hb, if_pos hlast]

/-! ### A cause applied (R130, R131) -/

/-- The state that enters the safe state by a cause (R99, R129, R130). -/
def State.entersSafe (c : Cause) (s : State) : State :=
  { s with
    safe := { s.safe with safe := true, causes := CauseSet.none.add c, safeOut := .low }
    chans := s.chans.mapRecords Channel.toSafe }

@[simp] theorem entersSafe_hwReset (c : Cause) (s : State) : (s.entersSafe c).hwReset = s.hwReset := by
  simp only [State.entersSafe]

@[simp] theorem noticeReady_entersSafe (c : Cause) (s : State) : noticeReady (s.entersSafe c) = noticeReady s := by
  simp only [noticeReady, State.entersSafe]

/-- SAFE_ENTERED with the cause as its subject (R130). -/
def safeEnteredNotice (c : Cause) (s : State) : Raised :=
  { kind := .safeEntered, subject := some c.subject, detail := 0, cycle := s.engine.cycle }

theorem applyCause_clear {s : State} (h : s.safe.safe = false) (c : Cause) :
    applyCause c s = raise (safeEnteredNotice c s) (s.entersSafe c) := if_neg (Bool.eq_false_iff.1 h)

theorem applyCause_set {s : State} (h : s.safe.safe = true) (c : Cause) :
    applyCause c s = { s with safe := { s.safe with causes := s.safe.causes.add c } } := if_pos h

/-- Entry into the safe state, with what it does to a channel spelled out (R99). -/
theorem entersSafe_eq {c : Cause} {s : State} {f : Channel → Channel} (h : ∀ c : Channel, c.toSafe = f c) :
    s.entersSafe c = { s with
      safe := { s.safe with safe := true, causes := CauseSet.none.add c, safeOut := .low }, chans := s.chans.mapRecords f } := by
  rw [State.entersSafe, funext h]

/-- A request that raises one notice by itself: its effect and its reply, the notice taken, and the transmitter asked. -/
theorem dispatch_raise {f : Frame} {s v : State} {r : Raised} {body : List Byte} (h : TakenAsNew f s) {carry : Carry}
    (hc : carry f.body s.taken = (raise r v.taken, body)) (hw : v.hwReset = none) (hn : noticeReady v = noticeReady s) :
    RaisedFrom (v.replied f body) (dispatch f carry s) [r] := by
  have hs : serve f carry s = raise r (v.replied f body) := serve_new (u := raise r v.taken) h.2 hc rfl
  have hd : dispatch f carry s = arbitrateAfter (noticeReady (v.replied f body)) (raise r (v.replied f body)) := by
    simp only [dispatch, h.1, if_true, hs, noticeReady_replied, hn]
  rw [hd]
  refine ⟨by simp, fun hr => ⟨by simpa using hr, [r], InOrder.one r, ?_⟩⟩
  exact Taken.arbitrateAfter rfl hw (.inl ⟨rfl, rfl, rfl⟩)

/-- An event that enters the safe state, and the transmitter asked. -/
theorem raisedFrom_applyCause {s : State} (hw : s.hwReset = none) (h : s.safe.safe = false) (c : Cause) :
    RaisedFrom (s.entersSafe c) (arbitrate (applyCause c s)) [safeEnteredNotice c s] := by
  rw [applyCause_clear h]
  exact raisedFrom_raise _ ((entersSafe_hwReset c s).trans hw)

/-! ### The sources of a cause (R132 to R134) -/

theorem carrySafe_set {s : State} (h : s.safe.safe = true) :
    carrySafe [] s = ({ s with safe := { s.safe with causes := { s.safe.causes with request := true } } },
      [0x00, 0x01, ({ s.safe.causes with request := true } : CauseSet).byte]) := by
  simp only [carrySafe, applyCause_set h, h]
  rfl

theorem carrySafe_clear {s : State} (h : s.safe.safe = false) :
    carrySafe [] s = (raise (safeEnteredNotice .request s) (s.entersSafe .request), [0x00, 0x01, 0x01]) := by
  have byte : (CauseSet.none.add .request).byte = 0x01 := by decide
  rw [← byte]
  simp only [carrySafe, applyCause_clear h]
  rfl

/-- The state with NSTOP sampled low. -/
def State.nstopLow (s : State) : State := { s with safe := { s.safe with nstop := .low } }

/-- A sample that finds NSTOP low applies STOP_LINE unless the set holds it (R133). -/
theorem exec_nstopLow {s : State} (hw : s.hwReset = none) :
    exec .nstopLow s =
      .next (if s.safe.causes.stopLine then s.nstopLow else arbitrate (applyCause .stopLine s.nstopLow)) :=
  congrArg Host.Outcome.next (if_neg (by simp [hw]))

/-- A sample that finds NSTOP high (R133). -/
theorem exec_nstopHigh {s : State} (hw : s.hwReset = none) :
    exec .nstopHigh s = .next { s with safe := { s.safe with nstop := .high } } :=
  congrArg Host.Outcome.next (if_neg (by simp [hw]))

/-- The state with the silence timer stopped. -/
def State.silenceStopped (s : State) : State := { s with safe := { s.safe with timer := none } }

/-- The expiry of the silence timer stops it and applies SILENCE (R134). -/
theorem exec_silenceTimerExpiry {s : State} (hw : s.hwReset = none) (ht : s.safe.timer = some s.now) :
    exec .silenceTimerExpiry s = .next (arbitrate (applyCause .silence s.silenceStopped)) := by
  have due : silenceDue s = true := by simp [silenceDue, hw, ht]
  exact congrArg Host.Outcome.next (if_pos due)

/-- Settles O40, one part for each source: SAFE decides whether the cause enters the safe state or joins the set. -/
theorem causesEnterSafe : Obligations.CausesEnterSafe := by
  intro s hw entered notice
  have toSafe : ∀ c : Channel, c.toSafe = match c with
      | .level c => .level { c with value := c.cfg.safe }
      | .burst c => .burst { c with value := c.cfg.safe, burst := none }
      | c => c := fun c => by cases c <;> rfl
  refine ⟨fun seq h => ⟨fun hset => ?_, fun hclear => ⟨_, rfl, ?_⟩⟩, ⟨fun hstop => ?_, fun hstop hset => ?_, fun hstop hclear => ?_⟩,
    exec_nstopHigh hw, fun ht => ⟨fun hset => ?_, fun hclear => ?_⟩⟩
  · exact exec_answered rfl h (carrySafe_set (s := s.taken) hset) rfl
  · have raised : RaisedFrom ((s.entersSafe .request).replied ⟨seq, 0x18, []⟩ [0x00, 0x01, 0x01]) _ _ :=
      dispatch_raise h (carrySafe_clear (s := s.taken) hclear) ((entersSafe_hwReset _ _).trans hw)
        (noticeReady_entersSafe _ _)
    exact raised.congr (congrArg (State.replied _ _) (entersSafe_eq toSafe)) rfl
  · rw [exec_nstopLow hw, if_pos hstop]
    rfl
  · rw [exec_nstopLow hw, if_neg (Bool.eq_false_iff.1 hstop), applyCause_set (s := s.nstopLow) hset]
    rfl
  · rw [exec_nstopLow hw, if_neg (Bool.eq_false_iff.1 hstop)]
    exact ⟨_, rfl, (raisedFrom_applyCause (s := s.nstopLow) hw hclear .stopLine).congr (entersSafe_eq toSafe) rfl⟩
  · rw [exec_silenceTimerExpiry hw ht, applyCause_set (s := s.silenceStopped) hset]
    rfl
  · rw [exec_silenceTimerExpiry hw ht]
    exact ⟨_, rfl, (raisedFrom_applyCause (s := s.silenceStopped) hw hclear .silence).congr (entersSafe_eq toSafe) rfl⟩

/-! ### RESUME and SILENCE_SET (R135, R136) -/

theorem carryResume_low {s : State} (h : s.safe.nstop = .low) :
    carryResume [] s = (s, [0x40, flagByte s.safe.safe, s.safe.causes.byte]) := if_pos h

theorem carryResume_high {s : State} (h : s.safe.nstop = .high) :
    carryResume [] s = ({ s with safe := { s.safe with safe := false, causes := CauseSet.none, safeOut := .high } },
      [0x00, 0x00, s.safe.causes.byte]) := if_neg (by simp [h])

theorem silencePeriodOk_iff {ms : Nat} : silencePeriodOk ms = true ↔ ms = 0 ∨ (10 ≤ ms ∧ ms ≤ 60000) := by
  simp [silencePeriodOk]

/-- A period reads back from the body of a SILENCE_SET. -/
theorem carrySilenceSet_le16 {period : Nat} (h : period < 65536) (s : State) :
    carrySilenceSet (le16 period) s =
      if silencePeriodOk period then
        (restartSilence { s with safe := { s.safe with period := period } }, [0x00] ++ le16 period)
      else answer statusBadValue s := by
  have read : read16 (le16 period) 0 = period := (read16_of_le16 rfl).trans (Nat.mod_eq_of_lt h)
  simp only [carrySilenceSet, read]
  rfl

/-- Settles O41: NSTOP decides on RESUME, and the range of the period on SILENCE_SET. -/
theorem resumeAndSilenceSet : Obligations.ResumeAndSilenceSet := by
  refine fun seq s => ⟨fun h => ⟨fun hn => ?_, fun hn => ?_⟩, fun period hp h => ⟨fun hok => ?_, fun hbad => ?_⟩⟩
  · exact exec_answered (u := s) rfl h (carryResume_low (s := s.taken) hn) rfl
  · exact exec_answered rfl h (carryResume_high (s := s.taken) hn) rfl
  · exact exec_answered rfl h ((carrySilenceSet_le16 hp s.taken).trans (if_pos (silencePeriodOk_iff.2 hok))) rfl
  · have out : ¬ silencePeriodOk period = true := by
      rw [silencePeriodOk_iff]
      omega
    exact exec_answer rfl h ((carrySilenceSet_le16 hp s.taken).trans (if_neg out))

end Sys2Proof.Machine
end

section
/-! PROOFS. A sample of the field lines (R117, R118, R123): what it makes of each line of an edge channel. -/

namespace Sys2Proof.Machine

/-! ### Levels and debounces, line by line -/

theorem levelOf_setLevel (v : LineValue) (i j : Fin 8) (l : Level) :
    levelOf (setLevel v i l) j = if j = i then l else levelOf v j := by
  have bit : (1#8 <<< i.val).getLsbD j.val = decide (j = i) := by revert i j; decide
  have bits : (setLevel v i l).getLsbD j.val = if j = i then decide (l = .high) else v.getLsbD j.val := by
    cases l with
    | high => by_cases h : j = i <;> simp only [setLevel_high_getLsbD, h] <;> simp
    | low =>
      rw [setLevel, BitVec.getLsbD_and, BitVec.getLsbD_not, bit]
      by_cases h : j = i <;> simp [h]
  rw [levelOf, bits]
  by_cases h : j = i
  · cases l <;> simp [h]
  · rw [if_neg h, if_neg h, levelOf]

theorem debounces_get_set (ds : Vector (Option Debounce) 8) (i j : Fin 8) (x : Option Debounce) :
    (ds.set i.val x i.isLt).get j = if j = i then x else ds.get j := by
  show (ds.set i.val x i.isLt)[j.val] = if j = i then x else ds[j.val]
  rw [Vector.getElem_set]
  exact if_congr (eq_comm.trans Fin.val_inj) rfl rfl

theorem mem_lines {c : EdgeChan} {i : Fin 8} : i ∈ c.lines ↔ i.val < c.cfg.run.width := by
  simp [EdgeChan.lines, allLines]

theorem nodup_lines (c : EdgeChan) : c.lines.Nodup := (List.nodup_finRange 8).filter _

/-! ### A sample of one line -/

/-- The debounce of a line once a sample has found it (R117, R118). -/
def EdgeChan.sampledDebounce (stamp : Stamp) (value : LineValue) (c : EdgeChan) (i : Fin 8) : Option Debounce :=
  if levelOf value i = levelOf c.settled i then none
  else if (c.debounces.get i).isSome ∨ c.retaken.get i = some stamp.instant then c.debounces.get i
  else some { began := stamp.instant, cycle := stamp.cycle, offset := stamp.offset, level := levelOf value i }

/-- The settled level of a line once a sample has found it (R123). -/
def EdgeChan.sampledLevel (stamp : Stamp) (value : LineValue) (c : EdgeChan) (i : Fin 8) : Level :=
  if levelOf value i ≠ levelOf c.settled i ∧ c.debounces.get i = none ∧ c.retaken.get i = some stamp.instant then levelOf value i
  else levelOf c.settled i

/-- The channel `d` is `c` with the lines of a list sampled. -/
structure EdgeChan.SampledOn (stamp : Stamp) (value : LineValue) (lines : List (Fin 8)) (c d : EdgeChan) : Prop where
  frame : d = { c with settled := d.settled, debounces := d.debounces }
  debounces : ∀ i, d.debounces.get i = if i ∈ lines then c.sampledDebounce stamp value i else c.debounces.get i
  settled : ∀ i, levelOf d.settled i = if i ∈ lines then c.sampledLevel stamp value i else levelOf c.settled i

/-- A line is sampled by its own level, settled level and debounce alone. -/
theorem sampled_congr {stamp : Stamp} {value : LineValue} {c d : EdgeChan} {i : Fin 8}
    (hf : d = { c with settled := d.settled, debounces := d.debounces }) (hd : d.debounces.get i = c.debounces.get i)
    (hs : levelOf d.settled i = levelOf c.settled i) :
    d.sampledDebounce stamp value i = c.sampledDebounce stamp value i ∧
      d.sampledLevel stamp value i = c.sampledLevel stamp value i := by
  have hr : d.retaken = c.retaken := by rw [hf]
  simp only [EdgeChan.sampledDebounce, EdgeChan.sampledLevel, hd, hs, hr, and_self]

theorem sampledOn_nil (stamp : Stamp) (value : LineValue) (c : EdgeChan) : c.SampledOn stamp value [] c :=
  ⟨rfl, fun _ => rfl, fun _ => rfl⟩

theorem sampleLine_frame (stamp : Stamp) (value : LineValue) (c : EdgeChan) (i : Fin 8) :
    c.sampleLine stamp value i =
      { c with settled := (c.sampleLine stamp value i).settled, debounces := (c.sampleLine stamp value i).debounces } := by
  unfold EdgeChan.sampleLine
  split_ifs <;> rfl

section Line

variable {stamp : Stamp} {value : LineValue} {c : EdgeChan} {i : Fin 8}

theorem sampledDebounce_back (h : levelOf value i = levelOf c.settled i) : c.sampledDebounce stamp value i = none := if_pos h

theorem sampledDebounce_held (h : levelOf value i ≠ levelOf c.settled i)
    (hd : (c.debounces.get i).isSome ∨ c.retaken.get i = some stamp.instant) :
    c.sampledDebounce stamp value i = c.debounces.get i := (if_neg h).trans (if_pos hd)

theorem sampledDebounce_begun (h : levelOf value i ≠ levelOf c.settled i) (hd : ¬ (c.debounces.get i).isSome)
    (hr : c.retaken.get i ≠ some stamp.instant) :
    c.sampledDebounce stamp value i =
      some { began := stamp.instant, cycle := stamp.cycle, offset := stamp.offset, level := levelOf value i } :=
  (if_neg h).trans (if_neg (not_or.2 ⟨hd, hr⟩))

end Line

theorem sampleLine_debounces (stamp : Stamp) (value : LineValue) (c : EdgeChan) (i j : Fin 8) :
    (c.sampleLine stamp value i).debounces.get j =
      if j = i then c.sampledDebounce stamp value i else c.debounces.get j := by
  have kept : c.debounces.get j = if j = i then c.debounces.get i else c.debounces.get j :=
    (ite_eq_right_iff.2 fun hj => by rw [hj]).symm
  unfold EdgeChan.sampleLine
  split
  · next hback =>
    rw [sampledDebounce_back hback]
    exact debounces_get_set _ _ _ _
  · next hmoved =>
    split
    · next hsome =>
      rw [sampledDebounce_held hmoved (.inl hsome)]
      exact kept
    · next hnone =>
      split
      · next hretaken =>
        rw [sampledDebounce_held hmoved (.inr hretaken)]
        exact kept
      · next hretaken =>
        rw [sampledDebounce_begun hmoved hnone hretaken]
        exact debounces_get_set _ _ _ _

theorem sampleLine_settled (stamp : Stamp) (value : LineValue) (c : EdgeChan) (i j : Fin 8) :
    levelOf (c.sampleLine stamp value i).settled j =
      if j = i then c.sampledLevel stamp value i else levelOf c.settled j := by
  have kept (h : c.sampledLevel stamp value i = levelOf c.settled i) :
      levelOf c.settled j = if j = i then c.sampledLevel stamp value i else levelOf c.settled j :=
    (ite_eq_right_iff.2 fun hj => by rw [h, hj]).symm
  unfold EdgeChan.sampleLine
  split
  · next hback => exact kept (if_neg fun ⟨hmoved, _⟩ => hmoved hback)
  · next hmoved =>
    split
    · next hsome => exact kept (if_neg fun ⟨_, hnone, _⟩ => by simp [hnone] at hsome)
    · next hnone =>
      split
      · next hretaken =>
        rw [show c.sampledLevel stamp value i = levelOf value i from if_pos ⟨hmoved, by simpa using hnone, hretaken⟩]
        exact levelOf_setLevel _ _ _ _
      · next hretaken => exact kept (if_neg fun ⟨_, _, h⟩ => hretaken h)

theorem sampledOn_sampleLine (stamp : Stamp) (value : LineValue) (c : EdgeChan) (i : Fin 8) :
    c.SampledOn stamp value [i] (c.sampleLine stamp value i) := by
  refine ⟨sampleLine_frame stamp value c i, fun j => ?_, fun j => ?_⟩
  · rw [sampleLine_debounces]
    by_cases hj : j = i <;> simp [hj]
  · rw [sampleLine_settled]
    by_cases hj : j = i <;> simp [hj]

/-- One more line sampled, which is none of those before. -/
theorem EdgeChan.SampledOn.cons {stamp : Stamp} {value : LineValue} {i : Fin 8} {lines : List (Fin 8)} {c d e : EdgeChan}
    (hi : i ∉ lines) (first : c.SampledOn stamp value [i] d) (others : d.SampledOn stamp value lines e) :
    c.SampledOn stamp value (i :: lines) e := by
  have untouched : ∀ j, j ≠ i → d.debounces.get j = c.debounces.get j ∧ levelOf d.settled j = levelOf c.settled j := by
    intro j hj
    rw [first.debounces, first.settled, if_neg (by simpa using hj), if_neg (by simpa using hj)]
    exact ⟨rfl, rfl⟩
  refine ⟨?_, fun j => ?_, fun j => ?_⟩
  · rw [others.frame, first.frame]
  · rw [others.debounces]
    by_cases hj : j = i
    · subst hj
      rw [if_neg hi, first.debounces, if_pos (by simp), if_pos (by simp)]
    · obtain ⟨hd, hs⟩ := untouched j hj
      rw [(sampled_congr first.frame hd hs).1, hd]
      simp [hj]
  · rw [others.settled]
    by_cases hj : j = i
    · subst hj
      rw [if_neg hi, first.settled, if_pos (by simp), if_pos (by simp)]
    · obtain ⟨hd, hs⟩ := untouched j hj
      rw [(sampled_congr first.frame hd hs).2, hs]
      simp [hj]

/-- Different lines sampled one after another, each as the channel stood before. -/
theorem sampledOn_foldl (stamp : Stamp) (value : LineValue) {lines : List (Fin 8)} (h : lines.Nodup) (c : EdgeChan) :
    c.SampledOn stamp value lines (lines.foldl (EdgeChan.sampleLine stamp value) c) := by
  induction lines generalizing c with
  | nil => exact sampledOn_nil stamp value c
  | cons i is ih =>
    obtain ⟨hi, his⟩ := List.nodup_cons.1 h
    exact (sampledOn_sampleLine stamp value c i).cons hi (ih his _)

/-! ### A sample of a channel -/

/-- An OPEN edge channel once a sample has found its lines (R117). -/
def EdgeChan.afterSample (stamp : Stamp) (levels : BitVec 32) (c : EdgeChan) : EdgeChan :=
  c.lines.foldl (EdgeChan.sampleLine stamp (c.cfg.run.read levels)) c

theorem sampledOn_afterSample (stamp : Stamp) (levels : BitVec 32) (c : EdgeChan) :
    c.SampledOn stamp (c.cfg.run.read levels) c.lines (c.afterSample stamp levels) :=
  sampledOn_foldl stamp _ (nodup_lines c) c

theorem sampled_opened {c : EdgeChan} (h : c.window = .opened) (stamp : Stamp) (levels : BitVec 32) :
    (Channel.edge c).sampled stamp levels = .edge (c.afterSample stamp levels) := congrArg Channel.edge (if_pos h)

/-- A channel that is no edge channel with its window OPEN is not sampled. -/
theorem sampled_of_not_open {c : Channel} (h : c.windowOpen = false) (stamp : Stamp) (levels : BitVec 32) :
    c.sampled stamp levels = c := by
  cases c with
  | edge c => exact congrArg Channel.edge (if_neg (by simpa [Channel.windowOpen] using h))
  | _ => rfl

theorem vector_eq_ofFn {ds : Vector (Option Debounce) 8} {f : Fin 8 → Option Debounce} (h : ∀ i, ds.get i = f i) :
    ds = Vector.ofFn f := by
  refine Vector.ext fun i hi => ?_
  rw [Vector.getElem_ofFn]
  exact h ⟨i, hi⟩

/-- Settles O38: the lines of the run are sampled each by itself, and no other line. -/
theorem edgeLineSamples : Obligations.EdgeLineSamples := by
  intro levels s hw
  refine ⟨(s.chans.mapRecords (Channel.sampled s.stamp levels)).records, ?_, fun ch hclosed => ?_, fun ch c hc hopen => ?_⟩
  · exact congrArg Host.Outcome.next (if_neg (by simp [hw]))
  · rw [ChannelTable.mapRecords_get]
    exact sampled_of_not_open hclosed _ _
  · intro value moved
    have sampled := sampledOn_afterSample s.stamp levels c
    refine ⟨(c.afterSample s.stamp levels).settled, ?_, fun i => ?_⟩
    · rw [ChannelTable.mapRecords_get, show s.chans.records.get ch = .edge c from hc, sampled_opened hopen, sampled.frame]
      congr 2
      refine vector_eq_ofFn fun i => ?_
      rw [sampled.debounces]
      by_cases hi : i.val < c.cfg.run.width
      · rw [if_pos (mem_lines.2 hi), if_neg (Nat.not_le.2 hi)]
        rfl
      · rw [if_neg (mt mem_lines.1 hi), if_pos (Nat.not_lt.1 hi)]
    · rw [sampled.settled]
      by_cases hi : i.val < c.cfg.run.width
      · rw [if_pos (mem_lines.2 hi), EdgeChan.sampledLevel]
        exact if_congr (by simp only [moved, hi, true_and]; rfl) rfl rfl
      · rw [if_neg (mt mem_lines.1 hi), if_neg fun h => hi h.1.1]

end Sys2Proof.Machine
end

section
/-! PROOFS. The confirmation of debounces (R119, R120): when a channel's are due, and the record and the notice of each line. -/

namespace Sys2Proof.Machine

/-! ### One line confirmed -/

/-- Below the depth an EDGE record joins the queue, judged against the high-water mark (R109, R111). -/
theorem EdgeChan.append_room {c : EdgeChan} (h : c.queue.length < c.cfg.depth) (ch : ChanIx) (r : EdgeRec) :
    c.append ch r
      = ({ c with queue := c.queue ++ [r] },
          if c.queue.length + 1 = c.cfg.mark then [channelNotice .data ch (c.queue.length + 1) r.cycle] else []) := by
  simp [EdgeChan.append, joinQueue_room h, lostAfter, appendNotice]

/-- At the depth one EDGE record is lost, the new or the oldest (R110). -/
theorem EdgeChan.append_full {c : EdgeChan} (h : c.cfg.depth ≤ c.queue.length) (ch : ChanIx) (r : EdgeRec) :
    c.append ch r
      = ({ c with
            queue := if c.cfg.full = .keepOld then c.queue else c.queue.tail ++ [r]
            lost := min (c.lost + 1) (max c.lost 65535) },
          [channelNotice .lost ch (min (c.lost + 1) (max c.lost 65535)) r.cycle]) := by
  rw [← satSucc_eq_min]
  simp [EdgeChan.append, joinQueue_full h, lostAfter, appendNotice]

theorem levelDirection_eq (l : Level) : levelDirection l = if l = .high then .rise else .fall := by cases l <;> rfl

/-- The edge select calls for a record of a change to a level (R119). -/
theorem takes_iff (e : EdgeSelect) (l : Level) :
    e.takes (levelDirection l) = true ↔ e = .both ∨ (e = .rise ∧ l = .high) ∨ (e = .fall ∧ l = .low) := by
  cases e <;> cases l <;> decide

/-- A channel with a line settled at a level and its debounce over (R119). -/
def EdgeChan.settle (i : Fin 8) (l : Level) (c : EdgeChan) : EdgeChan :=
  { c with settled := setLevel c.settled i l, debounces := c.debounces.set i.val none i.isLt }

/-- The record of a confirmed change, with the stamp of the change (R119). -/
def Debounce.record (i : Fin 8) (d : Debounce) : EdgeRec :=
  { cycle := d.cycle, offset := d.offset, line := i, direction := if d.level = .high then .rise else .fall }

theorem confirm_eq (ch : ChanIx) (i : Fin 8) (d : Debounce) (c : EdgeChan) :
    c.confirm ch i d =
      if c.select = .both ∨ (c.select = .rise ∧ d.level = .high) ∨ (c.select = .fall ∧ d.level = .low) then
        (c.settle i d.level).append ch (d.record i)
      else (c.settle i d.level, []) := by
  rw [Debounce.record, ← levelDirection_eq]
  exact if_congr (takes_iff _ _) rfl rfl

theorem lineDue_iff {now : Nat} {value : LineValue} {c : EdgeChan} {i : Fin 8} :
    c.lineDue now value i = true ↔
      ∃ d, c.debounces.get i = some d ∧ d.began + c.debounce = now ∧ levelOf value i = d.level := by
  unfold EdgeChan.lineDue
  cases c.debounces.get i <;> simp

theorem confirmLine_none {c : EdgeChan} {i : Fin 8} (h : c.debounces.get i = none) (ch : ChanIx) (now : Nat)
    (value : LineValue) : c.confirmLine ch now value i = (c, []) := by
  simp only [EdgeChan.confirmLine, h]

theorem confirmLine_some {c : EdgeChan} {i : Fin 8} {d : Debounce} (h : c.debounces.get i = some d) (ch : ChanIx) (now : Nat)
    (value : LineValue) :
    c.confirmLine ch now value i =
      if d.began + c.debounce = now ∧ levelOf value i = d.level then c.confirm ch i d else (c, []) := by
  simp only [EdgeChan.confirmLine, h]
  exact if_congr (by simp [lineDue_iff, h]) rfl rfl

/-! ### The lines of a channel confirmed one after another -/

/-- What the confirmation of other lines leaves as it is: the settings, and the debounce of the line (R120). -/
structure EdgeChan.SameFor (i : Fin 8) (c d : EdgeChan) : Prop where
  cfg : d.cfg = c.cfg
  select : d.select = c.select
  debounce : d.debounce = c.debounce
  line : d.debounces.get i = c.debounces.get i

theorem confirmLine_sameFor {c : EdgeChan} {i j : Fin 8} (h : j ≠ i) (ch : ChanIx) (now : Nat) (value : LineValue) :
    c.SameFor j (c.confirmLine ch now value i).1 := by
  have settled : ∀ l, c.SameFor j (c.settle i l) := fun l => ⟨rfl, rfl, rfl, by simp [EdgeChan.settle, debounces_get_set, h]⟩
  cases hd : c.debounces.get i with
  | none =>
    rw [confirmLine_none hd]
    exact ⟨rfl, rfl, rfl, rfl⟩
  | some d =>
    rw [confirmLine_some hd, confirm_eq]
    split
    · split
      · obtain ⟨hcfg, hselect, hdebounce, hline⟩ := settled d.level
        exact ⟨hcfg, hselect, hdebounce, hline⟩
      · exact settled _
    · exact ⟨rfl, rfl, rfl, rfl⟩

/-- A pass over different lines that treats each as the channel stood before it confirms them as the machine does. -/
theorem foldl_confirmLine {ch : ChanIx} {now : Nat} {value : LineValue} {c : EdgeChan}
    {f : EdgeChan × List Raised → Fin 8 → EdgeChan × List Raised}
    (hf : ∀ p i, c.SameFor i p.1 → f p i = ((p.1.confirmLine ch now value i).1, p.2 ++ (p.1.confirmLine ch now value i).2))
    {lines : List (Fin 8)} (h : lines.Nodup) {p : EdgeChan × List Raised} (hp : ∀ i ∈ lines, c.SameFor i p.1) :
    lines.foldl f p = lines.foldl
      (fun p i => ((p.1.confirmLine ch now value i).1, p.2 ++ (p.1.confirmLine ch now value i).2)) p := by
  induction lines generalizing p with
  | nil => rfl
  | cons i is ih =>
    obtain ⟨hi, his⟩ := List.nodup_cons.1 h
    rw [List.foldl_cons, List.foldl_cons, hf p i (hp i (by simp))]
    refine ih his fun j hj => ?_
    obtain ⟨hcfg, hselect, hdebounce, hline⟩ := hp j (by simp [hj])
    obtain ⟨hcfg', hselect', hdebounce', hline'⟩ :=
      confirmLine_sameFor (c := p.1) (i := i) (fun e => hi (e ▸ hj)) ch now value
    exact ⟨hcfg'.trans hcfg, hselect'.trans hselect, hdebounce'.trans hdebounce, hline'.trans hline⟩

/-! ### When a channel is due -/

/-- What may still come at the instant: a boundary, a step, or a stop at once (R115, R121; log 15). -/
theorem instantOver_eq_false_iff (s : State) :
    instantOver s = false ↔ boundaryDue s = true ∨ stepDue s = true ∨
      (frameDue .reply s = true ∧ ∃ seq, s.link.holding = some ⟨seq, 0x06, [1]⟩) ∨
      (.syncRisingEdge ∈ s.pending ∧ s.engine.mode = .sync) ∨ (∃ seq, .stop seq [1] ∈ s.pending) ∨
      ∃ seq, ⟨seq, 0x06, [1]⟩ ∈ framesToCome s := by
  rw [← cycleEndWaits_iff, ← heldStopDue_iff, instantOver]
  simp only [Bool.and_eq_false_iff, Bool.not_eq_false', or_assoc]

theorem debounceDue_iff {ch : ChanIx} {c : EdgeChan} {s : State} (hw : s.hwReset = none) (hc : s.chan ch = .edge c)
    (hopen : c.window = .opened) :
    debounceDue ch s = true ↔
      ¬ (c.debounce = 0 ∧ instantOver s = false ∨ ∃ levels ∈ samplesToCome s, c.undoneBy s.now s.pins.lines levels = true) ∧
      ∃ i ∈ c.lines, c.lineDue s.now (c.cfg.run.read s.pins.lines) i = true := by
  simp only [debounceDue, hw, hc, hopen, Option.isNone_none, beq_self_eq_true, Bool.true_and, Bool.and_eq_true, Bool.or_eq_true,
    bne_iff_ne, Bool.not_eq_true', ← Bool.not_eq_true, List.any_eq_true, not_or, not_and_or, not_not, ne_eq]

theorem exec_debounceConfirmed_not {ch : ChanIx} {s : State} (h : debounceDue ch s = false) :
    exec (.debounceConfirmed ch) s = .next s := next_notDue h _ s

theorem exec_debounceConfirmed {ch : ChanIx} {c : EdgeChan} {s : State} (h : debounceDue ch s = true)
    (hc : s.chan ch = .edge c) :
    exec (.debounceConfirmed ch) s = .next (arbitrate (raiseAll (c.confirmDue ch s.now (c.cfg.run.read s.pins.lines)).2
      (s.setChan ch (.edge (c.confirmDue ch s.now (c.cfg.run.read s.pins.lines)).1)))) := by
  refine congrArg Host.Outcome.next ((if_pos h).trans (congrArg arbitrate ?_))
  simp only [confirmChannel, hc]

/-- Settles O39: the lines that are due, each as the channel stood before the pass. -/
theorem debounceConfirms : Obligations.DebounceConfirms := by
  intro ch c s hw hc hopen ending value due undone
  have held : c.debounce = 0 ∧ ending ∨ undone ↔
      c.debounce = 0 ∧ instantOver s = false ∨ ∃ levels ∈ samplesToCome s, c.undoneBy s.now s.pins.lines levels = true := by
    simp only [instantOver_eq_false_iff, mem_samplesToCome, undoneBy_iff]
    rfl
  have isDue := debounceDue_iff hw hc hopen
  rw [← held] at isDue
  refine ⟨fun h => exec_debounceConfirmed_not (Bool.eq_false_iff.2 fun hd => (isDue.1 hd).1 h), fun h => ?_⟩
  intro wanted record notice confirm all hdue
  have lineDue : ∃ i ∈ c.lines, c.lineDue s.now value i = true := by
    obtain ⟨i, d, hi, hd, hnow⟩ := hdue
    exact ⟨i, mem_lines.2 hi, lineDue_iff.2 ⟨d, hd, hnow⟩⟩
  have confirmed : all = c.confirmDue ch s.now value := by
    refine foldl_confirmLine (fun p i same => ?_) (nodup_lines c) fun i _ => ⟨rfl, rfl, rfl, rfl⟩
    obtain ⟨hcfg, hselect, hdebounce, hline⟩ := same
    cases hd : c.debounces.get i with
    | none =>
      rw [confirmLine_none (hline.trans hd), List.append_nil]
      simp only [confirm, hd]
    | some d =>
      have settledCfg : (p.1.settle i d.level).cfg = c.cfg := hcfg
      rw [confirmLine_some (hline.trans hd), confirm_eq, hdebounce, hselect]
      simp only [confirm, hd]
      by_cases reached : due i d
      · rw [if_neg (not_not.2 reached), if_pos reached]
        by_cases want : wanted d.level
        · rw [if_neg (not_not.2 want), if_pos want, ← settledCfg]
          by_cases room : (p.1.settle i d.level).queue.length < (p.1.settle i d.level).cfg.depth
          · rw [EdgeChan.append_room room]
            exact if_pos room
          · rw [EdgeChan.append_full (Nat.not_lt.1 room)]
            exact if_neg room
        · rw [if_pos want, if_neg want, List.append_nil]
          rfl
      · rw [if_pos reached, if_neg reached, List.append_nil]
  rw [confirmed]
  exact ⟨_, exec_debounceConfirmed (isDue.2 ⟨h, lineDue⟩) hc, raisedFrom_raiseAll _ hw⟩

end Sys2Proof.Machine
end

section
/-! PROOFS. The requests to input channels (chapter 6): CHAN_EDGE and QUEUE_TAKE, and their outcome for each kind of channel. -/

namespace Sys2Proof.Machine

/-! ### CHAN_EDGE (R122) -/

section ChanEdge

variable (s : State) {ch : ChanIx} {time : Byte}

theorem edgeSelectOf_none {n : Nat} (h : 2 < n) : edgeSelectOf n = none := by
  cases he : edgeSelectOf n with
  | none => rfl
  | some e => exact absurd (edgeSelectOf_le he) (Nat.not_le.2 h)

theorem carryChanEdge_badValue {chB sel : Byte} (h : 15 < chB.toNat ∨ 2 < sel.toNat) :
    carryChanEdge [chB, sel, time] s = answer statusBadValue s := by
  obtain hc | he := h
  · simp only [carryChanEdge, chanAt_none (show 15 < natAt [chB, sel, time] 0 from hc)]
    rfl
  · simp only [carryChanEdge, edgeSelectOf_none (show 2 < natAt [chB, sel, time] 1 from he)]
    cases chanAt [chB, sel, time] 0 <;> rfl

/-- With a channel and an edge select in range the record of the channel decides (R122). -/
theorem carryChanEdge_read (select : EdgeSelect) :
    carryChanEdge [ixByte ch, select.code, time] s = match s.chan ch with
      | .free => answer statusNotConfigured s
      | .edge c => (s.setChan ch (.edge (c.reset s.now select time.toNat s.pins.lines)),
          [statusOk, ixByte ch, c.cfg.run.read s.pins.lines])
      | _ => answer statusKind s := by
  have channel : chanAt [ixByte ch, select.code, time] 0 = some ch := chanAt_of_ixByte rfl
  have edges : edgeSelectOf (natAt [ixByte ch, select.code, time] 1) = some select := edgeSelectOf_code select
  simp only [carryChanEdge, channel, edges]
  cases s.chan ch <;> rfl

end ChanEdge

/-- Settles O36: the two fields read back, and the kind of the channel decides. -/
theorem chanEdgeOutcomes : Obligations.ChanEdgeOutcomes := by
  intro seq chB sel time s h
  refine ⟨fun hout => exec_answer rfl h (carryChanEdge_badValue s.taken hout), ?_⟩
  rintro ch select rfl rfl
  have read := carryChanEdge_read s.taken (ch := ch) (time := time) select
  rw [show s.taken.chan ch = s.chan ch from rfl] at read
  refine ⟨fun hc => ?_, fun c hc => ?_, fun c hc => ?_, fun c hc => ?_, fun c hc => ?_⟩ <;> rw [hc] at read
  · exact exec_answer rfl h read
  · exact exec_answer rfl h read
  · exact exec_answer rfl h read
  · exact exec_answer rfl h read
  · exact exec_answered rfl h read rfl

/-! ### QUEUE_TAKE (R124) -/

theorem carryQueueTake_badValue {chB count : Byte} (s : State) (h : 15 < chB.toNat ∨ count.toNat < 1 ∨ 16 < count.toNat) :
    carryQueueTake [chB, count] s = answer statusBadValue s := by
  have refused : ∀ k, withLength 2 [chB, count] s k = k := fun _ => if_pos rfl
  rw [carryQueueTake, refused]
  cases hc : chanAt [chB, count] 0 with
  | none => rfl
  | some ch =>
    have inRange : ¬ 15 < chB.toNat := fun hb => by
      rw [chanAt_none (show 15 < natAt [chB, count] 0 from hb)] at hc
      cases hc
    exact if_pos (h.resolve_left inRange)

/-- With a channel and a count in range the record of the channel decides (R124). -/
theorem carryQueueTake_read {ch : ChanIx} {count : Byte} (s : State) (hmin : 1 ≤ count.toNat) (hmax : count.toNat ≤ 16) :
    carryQueueTake [ixByte ch, count] s = match s.chan ch with
      | .free => answer statusNotConfigured s
      | .level _ | .burst _ => answer statusKind s
      | .sample c => (s.setChan ch (.sample { c with queue := c.queue.drop count.toNat }),
          takeReply SampleRec.bytes (c.queue.take count.toNat) (c.queue.drop count.toNat))
      | .edge c => (s.setChan ch (.edge { c with queue := c.queue.drop count.toNat }),
          takeReply EdgeRec.bytes (c.queue.take count.toNat) (c.queue.drop count.toNat)) := by
  have channel : chanAt [ixByte ch, count] 0 = some ch := chanAt_of_ixByte rfl
  have inRange : ¬ (natAt [ixByte ch, count] 1 < 1 ∨ 16 < natAt [ixByte ch, count] 1) :=
    not_or.2 ⟨Nat.not_lt.2 hmin, Nat.not_lt.2 hmax⟩
  simp only [carryQueueTake, channel, if_neg inRange]
  cases s.chan ch <;> rfl

/-- The reply gives the number of records taken, and the fill that remains (R124). -/
theorem takeReply_eq {α : Type} (bytes : α → List Byte) (q : List α) (n : Nat) :
    takeReply bytes (q.take n) (q.drop n) =
      [0x00, byteOf (min n q.length), byteOf (q.length - n)] ++ (q.take n).flatMap bytes := by
  rw [takeReply, List.length_take, List.length_drop]
  rfl

/-- Settles O37: the count lies in its range, and the kind of the channel decides. -/
theorem queueTakeOutcomes : Obligations.QueueTakeOutcomes := by
  intro seq chB count s h f n
  refine ⟨fun hout => exec_answer rfl h (carryQueueTake_badValue s.taken hout), ?_⟩
  rintro ch rfl hmin hmax
  have read := carryQueueTake_read (ch := ch) s.taken hmin hmax
  rw [show s.taken.chan ch = s.chan ch from rfl] at read
  refine ⟨fun hc => ?_, fun c hc => ?_, fun c hc => ?_, fun c hc => ?_, fun c hc => ?_⟩ <;> rw [hc] at read
  · exact exec_answer rfl h read
  · exact exec_answer rfl h read
  · exact exec_answer rfl h read
  · exact exec_answered rfl h (read.trans (congrArg _ (takeReply_eq _ _ _))) rfl
  · exact exec_answered rfl h (read.trans (congrArg _ (takeReply_eq _ _ _))) rfl

end Sys2Proof.Machine
end

section
/-! PROOFS. Every command is a path of moves of the link and of effects of requests and events; and so is every step but the count of
the time base, which finds no command waiting and nothing due. SurvivesSteps does not say that no command waits as time counts, and a
command that waits can hold a debounce back (log 13, log 15); so the path is said here, for laws that hold only between two counts. -/

namespace Sys2Proof.Machine

/-! ### Paths of effects -/

/-- One thing that a command does: moves of the link, the effect of a request, or the effect of an event. -/
inductive Act (s t : State) : Prop
  | moves (h : LinkMoves s t)
  | request (h : RequestEffect s t)
  | event (h : EventEffect s t)

/-- What a command does in all, one thing after another. -/
abbrev Acts : State → State → Prop := Relation.ReflTransGen Act

theorem LinkMoves.acts {s t : State} (h : LinkMoves s t) : Acts s t := .single (.moves h)

theorem EventEffect.acts {s t : State} (h : EventEffect s t) : Acts s t := .single (.event h)

/-- A way of carrying out a request by its effect. -/
theorem Carry.HasEffect.acts {carry : Carry} (h : carry.HasEffect) (body : List Byte) (s : State) : Acts s (carry body s).1 := by
  obtain ⟨u, he, hm⟩ := h body s
  exact .trans (.single (.request he)) hm.acts

/-- A predicate that each of the three kinds of effect keeps is kept along the path. -/
theorem Acts.keeps {P : State → Prop} {s t : State} (h : Acts s t) (kept : ∀ {s t}, Act s t → P s → P t) (hs : P s) : P t := by
  induction h with
  | refl => exact hs
  | tail _ a ih => exact kept a ih

/-- An outcome whose next state, if any, is reached by a path of effects. -/
abbrev ActsOut (s : State) (o : Out) : Prop := Answers (Acts s) o

/-! ### Requests and characters -/

theorem serve_acts (f : Frame) (kind : Byte) (s : State) : Acts s (serve f (carryOf kind) s) := by
  have taken : LinkMoves s s.taken := ⟨rfl, id⟩
  have carried : Acts s (carryOf kind f.body s.taken).1 := taken.acts.trans ((carryOf_effect kind).acts f.body s.taken)
  unfold serve
  dsimp only
  split
  · split
    · exact taken.acts.tail (.moves ⟨rfl, id⟩)
    · exact carried.tail (.moves ⟨rfl, id⟩)
  · exact carried.tail (.moves ⟨rfl, id⟩)

theorem dispatch_acts (f : Frame) (kind : Byte) (s : State) : Acts s (dispatch f (carryOf kind) s) := by
  unfold dispatch
  split
  · exact (serve_acts f kind s).tail (.moves (linkMoves_arbitrateAfter _ _))
  · exact .refl

theorem serveHeld_acts (s : State) : Acts s (serveHeld s) := by
  unfold serveHeld
  split
  · exact serve_acts _ _ s
  · exact .refl

theorem offerRequest_acts (f : Frame) (s : State) : Acts s (offerRequest f s) := by
  have held : LinkMoves s { s with link := { s.link with holding := some f } } := ⟨rfl, id⟩
  unfold offerRequest
  split
  · exact (linkMoves_linkError s).acts
  · dsimp only
    split
    · exact held.acts.trans ((serveHeld_acts _).tail (.moves (linkMoves_arbitrateAfter _ _)))
    · exact held.acts

theorem judgeFrame_acts (f : Frame) (received : Nat) (s : State) : Acts s (judgeFrame f received s) := by
  have restarted : Acts s (restartSilence (setRx .hunt s)) := (linkMoves_hunt s).acts.tail (.event .silenceRestarts)
  unfold judgeFrame
  dsimp only
  split
  · exact ((linkMoves_hunt s).trans (linkMoves_linkError _)).acts
  · split
    · exact ((linkMoves_hunt s).trans (linkMoves_linkError _)).acts
    · split
      · exact restarted.tail (.moves ((linkMoves_takeAck _ _).trans (linkMoves_arbitrate _)))
      · exact restarted.trans (offerRequest_acts f _)

theorem receiveByte_acts (b : Byte) (s : State) : Acts s (receiveByte b s) := by
  have moved : LinkMoves s (setRx (s.link.rx.take s.now b).1 s) := linkMoves_setRx (gapEnd_take _ _ _)
  unfold receiveByte
  dsimp only
  split
  · exact moved.acts
  · exact (moved.trans (linkMoves_linkError _)).acts
  · exact moved.acts.trans (judgeFrame_acts _ _ _)

theorem receiveFaulty_acts (s : State) : Acts s (receiveFaulty s) := by
  have waits : LinkMoves s { s with link := { s.link with front := .awaitingHigh } } := ⟨rfl, id⟩
  unfold receiveFaulty
  dsimp only
  split
  · exact waits.acts
  · exact (waits.trans (linkMoves_abandon _)).acts

theorem onCharacter_acts {f : State → State} (hf : ∀ u, Acts u (f u)) (s : State) : ActsOut s (onCharacter f s) := by
  have seeking : LinkMoves s { s with link := { s.link with front := .seeking } } := ⟨rfl, id⟩
  refine answers_whenPowered .refl fun _ => ?_
  split
  · exact seeking.acts
  · exact seeking.acts.trans (hf _)
  · exact seeking.acts.trans (hf _)

/-! ### Boundaries -/

theorem handOn_acts {s u : State} (h : EventEffect s u.handsOn) : Acts s (handOn u) := by
  rw [handOn_eq]
  exact h.acts.tail (.moves (linkMoves_raiseAll _ _))

theorem newCycle_acts {s : State} (he : s.engine.state = .running) {flywheel : Bool}
    (hf : flywheel = true → s.engine.mode = .sync ∨ s.engine.flywheel = true) (source : Option NoticeKind) :
    Acts s (newCycle flywheel source s) := by
  have taken := linkMoves_takeRaised s
  have same : (takeRaised s).blocks.engine = s.blocks.engine := by rw [taken.1]
  have cycled : EventEffect (takeRaised s) ((takeRaised s).entersCycle flywheel).handsOn :=
    .cycles (same ▸ he) (same ▸ hf)
  have sourced : LinkMoves ((takeRaised s).entersCycle flywheel).handsOn
      (((takeRaised s).entersCycle flywheel).raisedBy source).handsOn := by
    cases source with
    | none => exact .refl _
    | some kind => exact linkMoves_raise _ ((takeRaised s).entersCycle flywheel).handsOn
  rw [newCycle_eq, handOn_eq]
  exact taken.acts.trans (cycled.acts.tail (.moves (sourced.trans (linkMoves_raiseAll _ _))))

theorem boundary_acts {s : State} (he : s.engine.state = .running) {flywheel : Bool}
    (hf : flywheel = true → s.engine.mode = .sync ∨ s.engine.flywheel = true) (source : Option NoticeKind) :
    Acts s (boundary flywheel source s) := by
  unfold boundary
  split
  · rw [stopAtBoundary_eq]
    exact (EventEffect.stops he).acts.tail (.moves (linkMoves_raiseAll _ _))
  · exact newCycle_acts he hf source

theorem risingEdge_acts (s : State) : Acts s (risingEdge s) := by
  unfold risingEdge
  split
  · next hm he => exact handOn_acts (.firstCycle he hm)
  · next hm he => split <;> exact boundary_acts he (fun _ => .inl hm) _
  · exact .refl

theorem deadlineDue_sync {s : State} (h : deadlineDue s = true) : boundaryDue s = true ∧ s.engine.mode = .sync := by
  simp only [deadlineDue, Bool.and_eq_true, beq_iff_eq] at h
  exact h.1

theorem flywheelDue_sync {s : State} (h : flywheelDue s = true) : boundaryDue s = true ∧ s.engine.mode = .sync := by
  simp only [flywheelDue, Bool.and_eq_true, beq_iff_eq] at h
  exact h.1

/-- A boundary of the engine's own, and the transmitter asked. -/
theorem boundaryDue_acts {s : State} {due : Bool} {flywheel : Bool} (source : Option NoticeKind)
    (hd : due = true → boundaryDue s = true)
    (hf : due = true → flywheel = true → s.engine.mode = .sync ∨ s.engine.flywheel = true) :
    ActsOut s (.next (if due then arbitrate (boundary flywheel source s) else s)) :=
  answers_ite (fun h => (boundary_acts (SurvivesSteps.boundaryDue_running (hd h)) (hf h) source).tail
    (.moves (linkMoves_arbitrate _))) .refl

/-! ### The walker, the channels, the safe state and the resets -/

theorem stepFire_acts (s : State) : ActsOut s (execStepFire s) := by
  unfold execStepFire
  split
  · exact answers_next .refl
  · next hw =>
    split
    · exact answers_next .refl
    · exact fun t ht => nomatch ht
    · next p st t hs =>
      split
      · next ht =>
        subst ht
        unfold fireStep
        split
        · exact fun t ht => nomatch ht
        · next t rs ho =>
          obtain ⟨chans, hh, hm⟩ := handOff_handedOff ho
          have fires : EventEffect s (s.fired st chans) := .fires ⟨by simpa using hw, hs⟩ hh
          exact answers_next (fires.acts.tail (.moves ((hm.withWalk st _).trans (linkMoves_settleFirings _))))
      · exact answers_next .refl

theorem confirmChannel_acts {ch : ChanIx} {s : State} (hd : debounceDue ch s = true) : Acts s (confirmChannel ch s) := by
  unfold confirmChannel
  split
  · next c hc => exact (EventEffect.confirms hd hc).acts.tail (.moves (linkMoves_raiseAll _ _))
  · exact .refl

theorem edgeLineChange_acts (levels : BitVec 32) (s : State) : ActsOut s (execEdgeLineChange levels s) := by
  unfold execEdgeLineChange whenPowered
  dsimp only
  split
  · next hw => exact answers_next (EventEffect.movesLines levels hw).acts
  · next hw => exact answers_next (EventEffect.samplesLines levels (by simpa using hw)).acts

theorem replySent_acts (s : State) : ActsOut s (execReplySent s) := by
  refine answers_ite (fun hd => ?_) .refl
  have hw : s.hwReset = none := by
    rw [frameDue, Bool.and_eq_true, Option.isNone_iff_eq_none] at hd
    exact hd.1
  have freed : LinkMoves s (emptySlot (freeTransmitter s)) := (linkMoves_freeTransmitter s).trans ⟨rfl, id⟩
  dsimp only
  split
  · have restarted : Acts s (softReset (emptySlot (freeTransmitter s))) := freed.acts.tail (.event (.softReset hw))
    exact (restarted.trans (serveHeld_acts _)).tail (.moves (linkMoves_arbitrate _))
  · exact ((freed.trans (linkMoves_maybeSendBefore _)).acts.trans (serveHeld_acts _)).tail
      (.moves (linkMoves_arbitrateAfter _ _))

theorem hardwareResetEnd_acts (samples : FirstSamples) (midCharacter : Bool) (s : State) :
    ActsOut s (exec (.hardwareResetEnd samples midCharacter) s) := by
  intro t ht
  cases hw : s.hwReset with
  | some cause => exact (EventEffect.resetEnds hw ht).acts
  | none =>
    obtain ⟨nstop, sync⟩ := samples
    obtain ⟨-, -, -, unaffected⟩ := hardwareResets s
    rw [unaffected nstop sync midCharacter hw] at ht
    cases ht
    exact .refl

/-- A cause applied, and the transmitter asked. -/
theorem applyCause_acts {s u : State} (h : Acts s u) (c : Cause) (hw : u.hwReset = none) :
    Acts s (arbitrate (applyCause c u)) :=
  (h.tail (.event (.causes c hw))).tail (.moves (linkMoves_arbitrate _))

/-! ### All commands, and all steps -/

/-- Every command is a path of effects. -/
theorem exec_acts (c : Instr) (s : State) : ActsOut s (exec c s) := by
  cases hf : requestFrame? c with
  | some f =>
    rw [exec_request hf]
    exact answers_next (dispatch_acts f f.kind s)
  | none =>
    cases c
    case unknownKind seq kind body =>
      have hk : ¬ unknownKindCode kind = true := by simpa [requestFrame?] using hf
      show ActsOut s (execUnknownKind seq kind body s)
      rw [execUnknownKind, if_neg hk]
      exact answers_next .refl
    case requestFrameReceived b => exact onCharacter_acts (receiveByte_acts b) s
    case ack b => exact onCharacter_acts (receiveByte_acts b) s
    case frameDiscarded b => exact onCharacter_acts (receiveByte_acts b) s
    case lengthByteAbove240 b => exact onCharacter_acts (receiveByte_acts b) s
    case byteTaken b => exact onCharacter_acts (receiveByte_acts b) s
    case framingError => exact onCharacter_acts receiveFaulty_acts s
    case gapLimit => exact answers_ite (fun _ => (linkMoves_abandon s).acts) .refl
    case replySent => exact replySent_acts s
    case noticeFrameSent =>
      exact answers_ite (fun _ => ((linkMoves_freeTransmitter s).trans (linkMoves_arbitrate _)).acts) .refl
    case hardwareResetBegin cause => exact fun t ht => (EventEffect.resetBegins ht).acts
    case hardwareResetEnd samples midCharacter => exact hardwareResetEnd_acts samples midCharacter s
    case periodBoundary => exact boundaryDue_acts none (fun h => (Bool.and_eq_true_iff.1 h).1) fun _ => .inr
    case syncRisingEdge =>
      refine answers_whenPowered .refl fun _ => ?_
      split
      · exact .refl
      · exact ((EventEffect.samplesSync .high).acts.trans (risingEdge_acts _)).tail (.moves (linkMoves_arbitrate _))
    case syncDeadline =>
      exact boundaryDue_acts _ (fun h => (deadlineDue_sync h).1) fun h _ => .inl (deadlineDue_sync h).2
    case flywheelBoundary =>
      exact boundaryDue_acts _ (fun h => (flywheelDue_sync h).1) fun h _ => .inl (flywheelDue_sync h).2
    case stepFire => exact stepFire_acts s
    case burstOnPhaseEnd ch => exact answers_ite (fun hd => (EventEffect.endsOn hd).acts) .refl
    case burstOffPhaseEnd ch => exact answers_ite (fun hd => (EventEffect.endsOff hd).acts) .refl
    case edgeLineChange levels => exact edgeLineChange_acts levels s
    case debounceConfirmed ch =>
      exact answers_ite (fun hd => (confirmChannel_acts hd).tail (.moves (linkMoves_arbitrate _))) .refl
    case nstopLow =>
      refine answers_whenPowered .refl fun hw => ?_
      dsimp only
      split
      · exact (EventEffect.samplesNstop .low).acts
      · exact applyCause_acts (EventEffect.samplesNstop .low).acts .stopLine hw
    case nstopHigh => exact answers_whenPowered .refl fun _ => (EventEffect.samplesNstop .high).acts
    case silenceTimerExpiry =>
      refine answers_ite (fun hd => applyCause_acts (EventEffect.silenceEnds hd).acts .silence ?_) .refl
      rw [silenceDue, Bool.and_eq_true, Option.isNone_iff_eq_none] at hd
      exact hd.1
    case retransmitTimerExpiry =>
      exact answers_ite (fun _ => ((linkMoves_resendDue s _).trans (linkMoves_arbitrate _)).acts) .refl
    case syncFallingEdge => exact answers_whenPowered .refl fun _ => (EventEffect.samplesSync .low).acts
    all_goals cases hf

/-- The time base counts: no command waits, no event is due, and no hardware reset lasts (R27, log 2). -/
structure Counts (s t : State) : Prop where
  pending : s.pending = []
  due : dueEvents s = []
  powered : s.hwReset = none
  next : t = { s with now := s.now + 1 }

/-- Every step is a path of effects, or the count of the time base. -/
theorem step_acts {s t : State} (h : step s = .next t) : Acts s t ∨ Counts s t := by
  cases hp : s.pending with
  | cons c rest =>
    have waiting : LinkMoves s { s with pending := rest } := ⟨rfl, id⟩
    simp only [step, hp] at h
    exact .inl (waiting.acts.trans (exec_acts c _ t h))
  | nil =>
    by_cases hd : dueEvents s = []
    · rw [step_idle hp hd] at h
      cases h
      unfold idle
      split
      · exact .inl .refl
      · next hw =>
        split
        · exact .inl (linkMoves_takeRaised s).acts
        · split
          · exact .inl (linkMoves_arbitrate s).acts
          · exact .inr ⟨hp, hd, by simpa using hw, rfl⟩
    · obtain ⟨c, n, -, hexec⟩ := step_due hp hd
      rw [hexec] at h
      exact .inl ((linkMoves_choices s n).acts.trans (exec_acts c _ t h))

end Sys2Proof.Machine
end

section
/-! PROOFS. The debounce law (R117 to R119) is kept by every step: what keeps it of one channel, of all channels along a path of
effects, and that the time base counts past no debounce that is due. -/

namespace Sys2Proof.Machine

/-! ### What the law says of one debounce -/

/-- A debounce in progress on line `i` of a channel, as R117 to R119 have it. -/
structure EdgeChan.RunsOn (now : Nat) (lines : BitVec 32) (c : EdgeChan) (i : Fin 8) (d : Debounce) : Prop where
  inRun : i.val < c.cfg.run.width
  window : c.window = .opened
  begun : d.began ≤ now
  inTime : now ≤ d.began + c.debounce
  shown : levelOf (c.cfg.run.read lines) i = d.level
  unsettled : levelOf c.settled i ≠ d.level

theorem debouncesRun_edge {now : Nat} {lines : BitVec 32} {c : EdgeChan} :
    (Channel.edge c).debouncesRun now lines = true ↔ ∀ i, ∀ d ∈ c.debounces.get i, c.RunsOn now lines i d := by
  simp only [Channel.debouncesRun, allLines, List.all_eq_true, List.mem_finRange, forall_const, Option.all_eq_true,
    Debounce.running, Bool.and_eq_true, decide_eq_true_eq, beq_iff_eq, bne_iff_ne]
  exact forall₃_congr fun i d _ => ⟨fun ⟨⟨hi, hw⟩, ⟨⟨hb, ht⟩, hs⟩, hu⟩ => ⟨hi, hw, hb, ht, hs, hu⟩,
    fun ⟨hi, hw, hb, ht, hs, hu⟩ => ⟨⟨hi, hw⟩, ⟨⟨hb, ht⟩, hs⟩, hu⟩⟩

theorem debouncesRun_quiet {c : EdgeChan} (h : c.debounces = noDebounces) (now : Nat) (lines : BitVec 32) :
    (Channel.edge c).debouncesRun now lines = true := by
  refine debouncesRun_edge.2 fun i d hd => ?_
  simp [h] at hd

section Record

variable {now : Nat} {lines : BitVec 32}

/-- The law reads the configuration, the debounce time and the window, and the settled level of the line. -/
theorem EdgeChan.RunsOn.congr {c e : EdgeChan} {i : Fin 8} {d : Debounce} (h : c.RunsOn now lines i d) (hcfg : e.cfg = c.cfg)
    (htime : e.debounce = c.debounce) (hwindow : e.window = c.window) (hs : levelOf e.settled i = levelOf c.settled i) :
    e.RunsOn now lines i d := by
  obtain ⟨hi, hw, hb, ht, hshown, hu⟩ := h
  exact ⟨by rwa [hcfg], by rwa [hwindow], hb, by rwa [htime], by rwa [hcfg], by rwa [hs]⟩

/-- Behind a CLOSED window there is no debounce (R116). -/
theorem noDebounces_of_closed {c : EdgeChan} (h : (Channel.edge c).debouncesRun now lines = true) (hw : c.window ≠ .opened) :
    c.debounces = noDebounces := by
  refine Vector.ext fun i hi => ?_
  show c.debounces.get ⟨i, hi⟩ = noDebounces.get ⟨i, hi⟩
  rw [noDebounces_get]
  exact Option.eq_none_iff_forall_not_mem.2 fun d hd => hw (debouncesRun_edge.1 h _ d hd).window

/-! ### Changes of one record -/

theorem debouncesRun_toSafe {c : Channel} (h : c.debouncesRun now lines = true) : c.toSafe.debouncesRun now lines = true := by
  cases c <;> exact h

theorem debouncesRun_onBurst {c : Channel} (h : c.debouncesRun now lines = true) (f : BurstChan → BurstChan) :
    (c.onBurst f).debouncesRun now lines = true := by
  cases c <;> exact h

/-- Closing discards every debounce (R115). -/
theorem debouncesRun_closeWindow {c : Channel} (h : c.debouncesRun now lines = true) :
    c.closeWindow.debouncesRun now lines = true := by
  cases c with
  | edge c =>
    rw [closeWindow_edge]
    split
    · exact debouncesRun_quiet rfl _ _
    · exact h
  | _ => exact h

theorem debouncesRun_atStop {c : Channel} (h : c.debouncesRun now lines = true) (atOnce : Bool) :
    (c.atStop atOnce).debouncesRun now lines = true := by
  have cut : c.cutBurst.debouncesRun now lines = true := by
    cases c with
    | burst c =>
      rw [cutBurst_burst]
      rfl
    | _ => exact h
  cases atOnce with
  | false => exact debouncesRun_closeWindow h
  | true => exact debouncesRun_closeWindow cut

/-- An OPEN re-takes the settled levels where there is no debounce (R114). -/
theorem debouncesRun_openWindow {c : EdgeChan} (h : (Channel.edge c).debouncesRun now lines = true) (levels : BitVec 32) :
    (Channel.edge (c.openWindow levels)).debouncesRun now lines = true := by
  rw [EdgeChan.openWindow_eq]
  split
  · exact h
  · next hw =>
    have quiet : c.debounces = noDebounces := noDebounces_of_closed h hw
    exact debouncesRun_quiet (c := { c with window := .opened, settled := c.cfg.run.read levels }) quiet _ _

/-- New stamps move the cycle and the cycle time of a change (R121). -/
theorem debouncesRun_restamp {c : Channel} (h : c.debouncesRun now lines = true) (instant : Nat) (cycle : CycleNo) :
    (c.restamp instant cycle).debouncesRun now lines = true := by
  cases c with
  | edge c =>
    refine debouncesRun_edge.2 fun i d hmem => ?_
    change d ∈ (c.debounces.map (Option.map (Debounce.restamp instant cycle)))[i.val] at hmem
    rw [Vector.getElem_map] at hmem
    obtain ⟨old, hold, rfl⟩ := Option.map_eq_some_iff.1 hmem
    obtain ⟨hi, hw, hb, ht, hs, hu⟩ := debouncesRun_edge.1 h i old hold
    unfold Debounce.restamp
    split <;> exact ⟨hi, hw, hb, ht, hs, hu⟩
  | _ => exact h

theorem debouncesRun_channelRequest {s : State} {ch : ChanIx} {c : Channel} (h : (s.chan ch).debouncesRun now lines = true)
    (e : ChannelRequest s ch c) : c.debouncesRun now lines = true := by
  cases e with
  | clears => cases hc : s.chan ch <;> rw [hc] at h <;> exact h
  | flushes => cases hc : s.chan ch <;> rw [hc] at h <;> exact h
  | resets select hc hd => exact debouncesRun_quiet rfl _ _
  | takesEdges n hc =>
    rw [hc] at h
    exact h
  | _ => rfl

theorem debouncesRun_install (setup : Setup) (safe : Bool) (levels : BitVec 32) :
    (setup.install safe levels).debouncesRun now lines = true := by
  cases setup with
  | edge cfg select debounce => exact debouncesRun_quiet rfl _ _
  | _ => rfl

/-! ### A sample and a confirmation -/

/-- Two levels that are away from a third are one. -/
theorem level_eq_of_ne {a b l : Level} (ha : a ≠ l) (hb : b ≠ l) : a = b :=
  match a, b, l with
  | .low, .low, _ | .high, .high, _ => rfl
  | .low, .high, .low | .high, .low, .high => absurd rfl ha
  | .low, .high, .high | .high, .low, .low => absurd rfl hb

/-- A line of the run that a sample finds with a debounce is away from its settled level, with the debounce that it had or one begun
now (R117, R118). -/
theorem runsOn_sampledDebounce {c : EdgeChan} {stamp : Stamp} {levels : BitVec 32} {i : Fin 8} {d : Debounce}
    (h : (Channel.edge c).debouncesRun now lines = true) (hw : c.window = .opened) (hnow : stamp.instant = now)
    (hi : i.val < c.cfg.run.width) (hd : c.sampledDebounce stamp (c.cfg.run.read levels) i = some d) :
    c.RunsOn now levels i d := by
  unfold EdgeChan.sampledDebounce at hd
  split at hd
  · cases hd
  · next hmoved =>
    split at hd
    · obtain ⟨-, -, hb, ht, -, hu⟩ := debouncesRun_edge.1 h i d hd
      exact ⟨hi, hw, hb, ht, level_eq_of_ne hmoved hu.symm, hu⟩
    · cases hd
      exact ⟨hi, hw, hnow.le, hnow ▸ Nat.le_add_right _ _, rfl, Ne.symm hmoved⟩

/-- The settled level of a line changes only where there is no debounce, and none begins (R123). -/
theorem sampledLevel_of_debounce {c : EdgeChan} {stamp : Stamp} {value : LineValue} {i : Fin 8} {d : Debounce}
    (hd : c.sampledDebounce stamp value i = some d) : c.sampledLevel stamp value i = levelOf c.settled i := by
  refine if_neg fun ⟨hmoved, hnone, hretaken⟩ => ?_
  rw [sampledDebounce_held hmoved (.inr hretaken), hnone] at hd
  cases hd

/-- A sample leaves the debounces whose lines stay away from their settled levels, and begins others at its instant (R117, R118). -/
theorem debouncesRun_afterSample {c : EdgeChan} {stamp : Stamp} (h : (Channel.edge c).debouncesRun now lines = true)
    (hw : c.window = .opened) (hnow : stamp.instant = now) (levels : BitVec 32) :
    (Channel.edge (c.afterSample stamp levels)).debouncesRun now levels = true := by
  obtain ⟨frame, debounces, settled⟩ := sampledOn_afterSample stamp levels c
  refine debouncesRun_edge.2 fun i d hmem => ?_
  replace hmem := (debounces i).symm.trans hmem
  replace settled := settled i
  by_cases hi : i ∈ c.lines
  · rw [if_pos hi] at hmem settled
    have runs := runsOn_sampledDebounce h hw hnow (mem_lines.1 hi) hmem
    exact runs.congr (by rw [frame]) (by rw [frame]) (by rw [frame]) (settled.trans (sampledLevel_of_debounce hmem))
  · rw [if_neg hi] at hmem
    exact absurd (mem_lines.2 (debouncesRun_edge.1 h i d hmem).inRun) hi

theorem debouncesRun_sampled {c : Channel} {stamp : Stamp} (h : c.debouncesRun now lines = true) (hnow : stamp.instant = now)
    (levels : BitVec 32) : (c.sampled stamp levels).debouncesRun now levels = true := by
  cases c with
  | edge c =>
    by_cases hw : c.window = .opened
    · rw [sampled_opened hw]
      exact debouncesRun_afterSample h hw hnow levels
    · rw [sampled_of_not_open (by simpa [Channel.windowOpen] using hw)]
      exact debouncesRun_quiet (noDebounces_of_closed h hw) _ _
  | _ => rfl

/-- A confirmed line has no debounce, and the other lines keep theirs (R119). -/
theorem debouncesRun_confirmLine {c : EdgeChan} (h : (Channel.edge c).debouncesRun now lines = true) (ch : ChanIx) (instant : Nat)
    (value : LineValue) (i : Fin 8) : (Channel.edge (c.confirmLine ch instant value i).1).debouncesRun now lines = true := by
  have settled : ∀ l, (Channel.edge (c.settle i l)).debouncesRun now lines = true := fun l => by
    refine debouncesRun_edge.2 fun j d hmem => ?_
    rw [EdgeChan.settle, Option.mem_def, debounces_get_set] at hmem
    split at hmem
    · cases hmem
    · next hj =>
      exact (debouncesRun_edge.1 h j d hmem).congr rfl rfl rfl (by rw [EdgeChan.settle, levelOf_setLevel, if_neg hj])
  cases hd : c.debounces.get i with
  | none =>
    rw [confirmLine_none hd]
    exact h
  | some d =>
    rw [confirmLine_some hd, confirm_eq]
    split
    · split
      · exact settled d.level
      · exact settled d.level
    · exact h

theorem debouncesRun_confirmDue {c : EdgeChan} (h : (Channel.edge c).debouncesRun now lines = true) (ch : ChanIx) (instant : Nat)
    (value : LineValue) : (Channel.edge (c.confirmDue ch instant value).1).debouncesRun now lines = true :=
  List.foldlRecOn (motive := fun p : EdgeChan × List Raised => (Channel.edge p.1).debouncesRun now lines = true)
    c.lines _ h fun _ hp i _ => debouncesRun_confirmLine hp ch instant value i

theorem debouncesRun_handedOff {s : State} {slot : SlotIx} {st : Step} {chans : ChannelTable}
    (h : ∀ ch, (s.chan ch).debouncesRun now lines = true) (e : HandedOff s slot st chans) (ch : ChanIx) :
    (chans.records.get ch).debouncesRun now lines = true := by
  have replaced : ∀ {o : ChanIx} {c : Channel}, c.debouncesRun now lines = true →
      ((s.setChan o c).chan ch).debouncesRun now lines = true := fun hc =>
    forall_setChan (Q := fun c => c.debouncesRun now lines = true) h hc ch
  cases e with
  | unchanged => exact h ch
  | emitsLevel ha hc hs => exact replaced rfl
  | emitsBurst ha hc hs => exact replaced rfl
  | samples ha hc => exact replaced rfl
  | opens ha hc => exact replaced (debouncesRun_openWindow (hc ▸ h _) _)
  | closes ha hc => exact replaced (debouncesRun_closeWindow (hc ▸ h _))

end Record

/-! ### All channels, along a path of effects -/

/-- The debounces of every channel run, while the part is powered. -/
def DebouncesRun (s : State) : Prop := s.hwReset = none → ∀ ch, (s.chan ch).debouncesRun s.now s.pins.lines = true

theorem debouncesRun_congr {s t : State} (h : DebouncesRun s) (hw : t.hwReset = s.hwReset) (hn : t.now = s.now)
    (hc : t.chans = s.chans) (hl : t.pins.lines = s.pins.lines) : DebouncesRun t := by
  unfold DebouncesRun State.chan at h ⊢
  rw [hw, hn, hc, hl]
  exact h

theorem debouncesRun_blockLaw : BlockLaw DebouncesRun := fun {s t} h hb => by
  have congrBlocks : DebouncesRun t.blocks := by
    rw [hb]
    exact debouncesRun_congr h rfl rfl rfl rfl
  exact debouncesRun_congr congrBlocks rfl rfl rfl rfl

/-- Free channels have no debounce (R82). -/
theorem debouncesRun_cleared {s : State} (h : s.chans = ChannelTable.afterReset) : DebouncesRun s := fun _ ch => by
  rw [State.chan, h, records_afterReset]
  rfl

theorem debouncesRun_mapRecords {s : State} (h : DebouncesRun s) {f : Channel → Channel}
    (hf : ∀ c : Channel, c.debouncesRun s.now s.pins.lines = true → (f c).debouncesRun s.now s.pins.lines = true) :
    DebouncesRun { s with chans := s.chans.mapRecords f } := fun hw =>
  forall_mapRecords (Q' := fun c => c.debouncesRun s.now s.pins.lines = true) (h hw) hf

theorem debouncesRun_setChan {s : State} (h : DebouncesRun s) {ch : ChanIx} {c : Channel}
    (hc : (s.chan ch).debouncesRun s.now s.pins.lines = true → c.debouncesRun s.now s.pins.lines = true) :
    DebouncesRun (s.setChan ch c) := fun hw =>
  forall_setChan (Q := fun c => c.debouncesRun s.now s.pins.lines = true) (h hw) (hc (h hw ch))

theorem debouncesRun_replace {s : State} (h : DebouncesRun s) (ch : ChanIx) {c : Channel}
    (hc : c.debouncesRun s.now s.pins.lines = true) : DebouncesRun { s with chans := s.chans.replace ch c } := fun hw =>
  forall_replace (Q := fun c => c.debouncesRun s.now s.pins.lines = true) (h hw) hc

theorem debouncesRun_entersStopped {s : State} (h : DebouncesRun s) (now : Bool) : DebouncesRun (s.entersStopped now) :=
  debouncesRun_congr (debouncesRun_mapRecords h fun _ hc => debouncesRun_atStop hc now) rfl rfl rfl rfl

theorem debouncesRun_applyCause {s : State} (h : DebouncesRun s) (c : Cause) : DebouncesRun (applyCause c s) := by
  unfold applyCause
  split
  · exact h
  · exact debouncesRun_congr (debouncesRun_mapRecords h fun _ => debouncesRun_toSafe) rfl rfl rfl rfl

theorem debouncesRun_stampAtBoundary {s : State} (h : DebouncesRun s) (cycle : CycleNo) :
    DebouncesRun { s with chans := stampAtBoundary cycle s } := by
  unfold stampAtBoundary
  split
  · exact h
  · exact debouncesRun_mapRecords h fun _ hc => debouncesRun_restamp hc _ _

theorem debouncesRun_softReset (s : State) : DebouncesRun (softReset s) := by
  unfold softReset announceReset
  dsimp only
  split
  · exact debouncesRun_applyCause (debouncesRun_cleared rfl) _
  · exact debouncesRun_cleared rfl

theorem debouncesRun_requestEffect {s u : State} (h : DebouncesRun s) (e : RequestEffect s u) : DebouncesRun u := by
  cases e with
  | stops now he => exact debouncesRun_entersStopped h now
  | installs hset hr hl hd => exact debouncesRun_replace h _ (debouncesRun_install _ _ _)
  | releases hc hr => exact debouncesRun_replace h _ rfl
  | changes hc => exact debouncesRun_setChan h fun hch => debouncesRun_channelRequest hch hc
  | causes => exact debouncesRun_applyCause h _
  | _ => exact debouncesRun_congr h rfl rfl rfl rfl

theorem debouncesRun_eventEffect {s u : State} (h : DebouncesRun s) (e : EventEffect s u) : DebouncesRun u := by
  cases e with
  | cycles hs hf => exact debouncesRun_congr (debouncesRun_stampAtBoundary h _) rfl rfl rfl rfl
  | stops hs => exact debouncesRun_entersStopped h false
  | fires hf hh => exact fun hw => debouncesRun_handedOff (h hw) hh
  | endsOn hd => exact debouncesRun_setChan h fun hc => debouncesRun_onBurst hc _
  | endsOff hd => exact debouncesRun_setChan h fun hc => debouncesRun_onBurst hc _
  | samplesLines levels hw =>
    exact fun _ => forall_mapRecords (Q' := fun c => c.debouncesRun s.now levels = true) (h hw) fun _ hc =>
      debouncesRun_sampled hc rfl levels
  | movesLines levels hw => exact fun hn => by rw [show s.hwReset = none from hn] at hw; cases hw
  | confirms hd hc => exact debouncesRun_setChan h fun hch => debouncesRun_confirmDue (hc ▸ hch) _ _ _
  | causes c hw => exact debouncesRun_applyCause h c
  | softReset hw => exact debouncesRun_softReset s
  | resetBegins ht =>
    cases ht
    exact debouncesRun_cleared rfl
  | resetEnds hw ht =>
    rw [exec_hardwareResetEnd hw] at ht
    cases ht
    exact debouncesRun_cleared rfl
  | _ => exact debouncesRun_congr h rfl rfl rfl rfl

theorem debouncesRun_act {s t : State} (a : Act s t) (h : DebouncesRun s) : DebouncesRun t := by
  cases a with
  | moves hm => exact debouncesRun_blockLaw h hm.1
  | request e => exact debouncesRun_requestEffect h e
  | event e => exact debouncesRun_eventEffect h e

/-! ### The count of the time base -/

/-- With nothing waiting and nothing due, no boundary, stop or step of the instant is to come (log 15). -/
theorem instantOver_of_nothingDue {s : State} (hp : s.pending = []) (hw : s.hwReset = none) (hd : dueEvents s = []) :
    instantOver s = true := by
  by_contra h
  obtain hb | hs | ⟨hr, -⟩ | ⟨hr, -⟩ | ⟨_, hr⟩ | ⟨_, hr⟩ := (instantOver_eq_false_iff s).1 (Bool.eq_false_iff.2 h)
  · have due := hb
    simp only [boundaryDue, Bool.and_eq_true, beq_iff_eq] at due
    exact nextBoundary_ne_now hw hd (SurvivesSteps.boundaryDue_running hb) due.2
  · exact not_mem_of_nothingDue hd .stepFire (by simp [mem_dueEvents, hs])
  · exact not_mem_of_nothingDue hd .replySent (by simp [mem_dueEvents, hr])
  · simp [hp] at hr
  · simp [hp] at hr
  · simp [framesToCome, hp, Receiver.framesFrom] at hr

/-- With nothing waiting, a debounce whose time is over is due, and so the time base counts past none (R119). -/
theorem debouncesRun_counts {s t : State} (h : DebouncesRun s) (c : Counts s t) : DebouncesRun t := by
  obtain ⟨hp, hd, hw, rfl⟩ := c
  intro _ ch
  have hch := h hw ch
  show (s.chan ch).debouncesRun (s.now + 1) s.pins.lines = true
  cases hc : s.chan ch with
  | edge c =>
    rw [hc] at hch
    refine debouncesRun_edge.2 fun i d hmem => ?_
    obtain ⟨hi, hopen, hb, ht, hs, hu⟩ := debouncesRun_edge.1 hch i d hmem
    have notDue : d.began + c.debounce ≠ s.now := fun hend => by
      have waiting : ¬ (c.debounce = 0 ∧ instantOver s = false ∨
          ∃ levels ∈ samplesToCome s, c.undoneBy s.now s.pins.lines levels = true) := by
        simp [instantOver_of_nothingDue hp hw hd, samplesToCome, hp]
      have due : debounceDue ch s = true :=
        (debounceDue_iff hw hc hopen).2 ⟨waiting, i, mem_lines.2 hi, lineDue_iff.2 ⟨d, hmem, hend, hs⟩⟩
      exact not_mem_of_nothingDue hd (.debounceConfirmed ch) (by simp [mem_dueEvents, due])
    exact ⟨hi, hopen, by omega, by omega, hs, hu⟩
  | _ => rfl

/-- Where every channel is free the law holds (R82, R181). -/
theorem debounceLaw_of_free {s : State} (h : ∀ ch, s.chan ch = .free) : DebounceLaw s :=
  ⟨fun _ => h, fun ch => by rw [h]; rfl⟩

/-- Settles O60: every effect keeps the law of a powered part, the time base counts past no debounce, and a hardware reset leaves no
channel. -/
theorem debounceLawKept : Obligations.DebounceLawKept := by
  rintro s t ⟨hfree, hrun⟩ hstep
  by_cases ht : t.hwReset = none
  · have kept : DebouncesRun t := by
      obtain acts | counts := step_acts hstep
      · exact acts.keeps debouncesRun_act fun _ => hrun
      · exact debouncesRun_counts (fun _ => hrun) counts
    exact ⟨fun hw => absurd (Option.isSome_iff_ne_none.1 hw) (not_not.2 ht), kept ht⟩
  · obtain ⟨cause, u, hexec⟩ | ⟨hw, lines, pending, rfl⟩ := step_leavesReset hstep ht
    · cases hexec
      exact debounceLaw_of_free fun ch => records_afterReset ch
    · exact debounceLaw_of_free (hfree (Option.isSome_iff_ne_none.2 hw))

end Sys2Proof.Machine
end

section
/-! PROOFS. The second CRC byte (chapter 9): how a complete frame is judged, and what becomes of an acknowledgment and of a request. -/

namespace Sys2Proof.Machine

/-! ### The last byte of a frame (R157, R159, R162) -/

/-- The state with a frame's last byte taken: the receiver in HUNT, at the next start bit. -/
def State.hunting (s : State) : State := { s with link := { s.link with rx := .hunt, front := .seeking } }

/-- Any character but the one under way as a hardware reset ended is received (R157, R168). -/
theorem onCharacter_received {s : State} (hw : s.hwReset = none) (hf : s.link.front ≠ .leavingOut) (k : State → State) :
    onCharacter k s = .next (k { s with link := { s.link with front := .seeking } }) := by
  have powered : ¬ s.hwReset.isSome = true := by simp [hw]
  refine congrArg Host.Outcome.next ((if_neg powered).trans ?_)
  cases h : s.link.front with
  | leavingOut => exact absurd h hf
  | seeking => rfl
  | awaitingHigh => rfl

/-- The second CRC byte has the frame judged, the receiver in HUNT (R159, R162). -/
theorem onCharacter_lastByte {last : Nat} {len seq kind lo : Byte} {body : List Byte} {s : State} (hw : s.hwReset = none)
    (hf : s.link.front ≠ .leavingOut) (hr : s.link.rx = .within last (.check len seq kind body (some lo))) (b : Byte) :
    onCharacter (receiveByte b) s = .next (judgeFrame ⟨seq, kind, body⟩ (lo.toNat + 256 * b.toNat) s.hunting) := by
  have complete : s.link.rx.take s.now b = (.hunt, .complete ⟨seq, kind, body⟩ (lo.toNat + 256 * b.toNat)) := by
    rw [hr]
    rfl
  rw [onCharacter_received hw hf,
    receiveByte_complete (s := { s with link := { s.link with front := .seeking } }) complete]
  rfl

/-! ### The frame judged (R162) -/

/-- A frame that fails its CRC or has a kind of 0x80 or above is a link error (R162). -/
theorem judgeFrame_discarded {f : Frame} {received : Nat} {s : State}
    (h : (crc f.covered).toNat ≠ received ∨ 0x80 ≤ f.kind.toNat) : judgeFrame f received s = linkError (setRx .hunt s) := by
  unfold judgeFrame
  by_cases hcrc : (crc f.covered).toNat = received
  · have high : 0x80 ≤ f.kind.toNat := h.resolve_left (not_not.2 hcrc)
    rw [if_neg (not_not.2 hcrc), if_pos high]
  · rw [if_pos hcrc]

/-- A frame that passes restarts the silence timer and goes on by its kind (R134, R162). -/
theorem judgeFrame_valid {f : Frame} {received : Nat} {s : State} (hcrc : (crc f.covered).toNat = received)
    (hkind : f.kind.toNat < 0x80) : judgeFrame f received s =
      if f.kind = 0x40 then arbitrate (takeAck f.body (restartSilence (setRx .hunt s)))
      else offerRequest f (restartSilence (setRx .hunt s)) := by
  unfold judgeFrame
  rw [if_neg (not_not.2 hcrc), if_neg (Nat.not_le.2 hkind)]

/-- An acknowledgment of any length but one byte is ignored (R149). -/
theorem takeAck_ignored {body : List Byte} (h : body.length ≠ 1) (s : State) : takeAck body s = s := by
  unfold takeAck
  split
  · exact absurd rfl h
  · rfl

/-! ### A request offered (R164, R171) -/

/-- With the holding buffer occupied the request is a link error (R164). -/
theorem offerRequest_discarded {s : State} (h : s.link.holding.isSome = true) (f : Frame) : offerRequest f s = linkError s :=
  if_pos h

/-- With the buffer empty and the reply slot occupied the request waits (R164, R171). -/
theorem offerRequest_waits {s : State} (hh : s.link.holding = none) (hs : s.disp.slot ≠ .empty) (f : Frame) :
    offerRequest f s = { s with link := { s.link with holding := some f } } := by
  unfold offerRequest
  rw [if_neg (by simp [hh])]
  dsimp only
  split
  · contradiction
  · rfl

/-- With buffer and slot empty the request goes through the buffer to the Dispatcher (R171). -/
theorem offerRequest_served {s : State} (hh : s.link.holding = none) (hs : s.disp.slot = .empty) (f : Frame) :
    offerRequest f s = arbitrateAfter (noticeReady s) (serveHeld { s with link := { s.link with holding := some f } }) := by
  unfold offerRequest
  rw [if_neg (by simp [hh])]
  simp only [hs]
  rfl

/-- Offered with buffer and slot empty or handed over directly, a request has the same outcome: the Dispatcher empties the buffer
before it looks at the request (R171). -/
theorem exec_eq_offerRequest {c : Instr} {f : Frame} {s : State} (hc : requestFrame? c = some f) (hw : s.hwReset = none)
    (hh : s.link.holding = none) (hs : s.disp.slot = .empty) : exec c s = .next (offerRequest f s) := by
  have direct : canTake f s = true := by simp [canTake, hw, hs, hh]
  rw [offerRequest_served hh hs, serveHeld_some (s := { s with link := { s.link with holding := some f } }) rfl hs,
    exec_request hc, dispatch, if_pos direct]
  rfl

/-- The kind of a request is below 0x80 and not that of an acknowledgment (R162, section 10.6). -/
theorem requestFrame?_kind {c : Instr} {f : Frame} (h : requestFrame? c = some f) : f.kind.toNat < 0x80 ∧ f.kind ≠ 0x40 := by
  cases c
  case unknownKind seq kind body =>
    simp only [requestFrame?, Option.ite_none_right_eq_some, Option.some.injEq] at h
    obtain ⟨hk, rfl⟩ := h
    simp only [unknownKindCode, Bool.and_eq_true, decide_eq_true_eq, Bool.not_eq_true', beq_eq_false_iff_ne] at hk
    obtain ⟨hkind, -⟩ := hk
    exact hkind
  all_goals cases h
  all_goals simp

/-! ### The commands of the second CRC byte -/

/-- Settles O49: the frame is judged valid and offered, which is what its own command does. -/
theorem requestFrameTakenAtOnce : Obligations.RequestFrameTakenAtOnce := by
  intro c f last len lo b s hc hw hf hr hcrc hh hs
  obtain ⟨hkind, hack⟩ := requestFrame?_kind hc
  show onCharacter (receiveByte b) s = exec c (restartSilence s.hunting)
  rw [exec_eq_offerRequest (s := restartSilence s.hunting) hc hw hh hs, onCharacter_lastByte hw hf hr, judgeFrame_valid hcrc hkind,
    if_neg hack]
  rfl

/-- Settles O48: the frame is judged, and each outcome read off the state that has heard it. -/
theorem completeFrames : Obligations.CompleteFrames := by
  intro last len seq kind lo b body s hw hcl hf hr f good errors heard
  have judged := onCharacter_lastByte hw hf hr b
  have acked (hcrc : good) (hk : kind = 0x40) : exec (.ack b) s = .next (arbitrate (takeAck body heard)) := by
    have low : kind.toNat < 0x80 := by rw [hk]; decide
    exact judged.trans (congrArg Host.Outcome.next ((judgeFrame_valid hcrc low).trans (if_pos hk)))
  have offered (hcrc : good) (low : kind.toNat < 0x80) (hk : kind ≠ 0x40) :
      exec (.requestFrameReceived b) s = .next (offerRequest f heard) :=
    judged.trans (congrArg Host.Outcome.next ((judgeFrame_valid hcrc low).trans (if_neg hk)))
  refine ⟨fun bad => ?_, fun hcrc hk => ⟨fun num hbody => ?_, fun hbody => ?_⟩,
    fun hcrc low hk hs => ⟨fun hh => ?_, fun hh => ?_⟩⟩
  · refine judged.trans ?_
    rw [judgeFrame_discarded bad, linkError_counted (s := setRx .hunt s.hunting) hcl]
    rfl
  · rw [acked hcrc hk, hbody]
    rfl
  · rw [acked hcrc hk, takeAck_ignored hbody]
  · rw [offered hcrc low hk, offerRequest_waits (s := heard) hh hs]
  · rw [offered hcrc low hk, offerRequest_discarded (s := heard) hh, linkError_counted (s := heard) hcl]
    rfl

end Sys2Proof.Machine
end

section
/-! PROOFS. The Notice Unit (chapter 8): what it makes of a raised notice, what it offers the transmitter, what an ACK takes out of its
queue, and the two events that are its own. -/

namespace Sys2Proof.Machine

/-! ### Entries -/

@[simp] theorem Notice.isUnsent_iff (e : Notice) : e.isUnsent = true ↔ e.state = .unsent := beq_iff_eq

@[simp] theorem Notice.isSent_iff (e : Notice) : e.isSent = true ↔ e.state ≠ .unsent := by simp [Notice.isSent, Notice.isUnsent]

@[simp] theorem Notice.isOverflow_iff (e : Notice) : e.isOverflow = true ↔ e.kind = .overflow := beq_iff_eq

theorem ordinaryCount_eq (q : List Notice) : ordinaryCount q = (q.filter fun e => e.kind != .overflow).length :=
  List.countP_eq_length_filter

theorem sentCount_eq (q : List Notice) : sentCount q = (q.filter fun e => e.state != .unsent).length :=
  List.countP_eq_length_filter

theorem sentCount_eq_zero (q : List Notice) : sentCount q = 0 ↔ ∀ e ∈ q, e.state = .unsent := by
  simp [sentCount, List.countP_eq_zero]

/-! ### A notice folded (R141) -/

/-- The notice is folded into an entry like this one. -/
def Raised.FoldsInto (r : Raised) (e : Notice) : Prop := e.state = .unsent ∧ e.kind = r.kind ∧ e.subject = r.subject

/-- The entry with the notice folded into it. -/
def Raised.folded (r : Raised) (e : Notice) : Notice :=
  { e with count := satSucc 255 e.count, cycle := r.cycle, detail := r.detail }

theorem foldNotice_cons_of_folds {r : Raised} {e : Notice} (h : r.FoldsInto e) (q : List Notice) :
    foldNotice r (e :: q) = some (r.folded e :: q) := by
  obtain ⟨hs, hk, hsub⟩ := h
  simp [foldNotice, Raised.folded, hs, hk, hsub]

theorem foldNotice_cons_of_not {r : Raised} {e : Notice} (h : ¬ r.FoldsInto e) (q : List Notice) :
    foldNotice r (e :: q) = (foldNotice r q).map (e :: ·) := by
  have skipped : ¬ (e.isUnsent && e.kind == r.kind && e.subject == r.subject) = true := by
    simpa [Raised.FoldsInto, and_assoc] using h
  rw [foldNotice, if_neg skipped]

/-- The first entry that the notice folds into keeps its place. -/
theorem foldNotice_first {r : Raised} {front : List Notice} {e : Notice} (he : r.FoldsInto e)
    (hfront : ∀ x ∈ front, ¬ r.FoldsInto x) (back : List Notice) :
    foldNotice r (front ++ e :: back) = some (front ++ r.folded e :: back) := by
  induction front with
  | nil => exact foldNotice_cons_of_folds he back
  | cons x front ih =>
    obtain ⟨hx, hrest⟩ := List.forall_mem_cons.1 hfront
    rw [List.cons_append, foldNotice_cons_of_not hx, ih hrest]
    rfl

theorem foldNotice_eq_none {r : Raised} {q : List Notice} : foldNotice r q = none ↔ ∀ e ∈ q, ¬ r.FoldsInto e := by
  induction q with
  | nil => simp [foldNotice]
  | cons e q ih =>
    by_cases he : r.FoldsInto e
    · simp [foldNotice_cons_of_folds he, he]
    · simp [foldNotice_cons_of_not he, he, ih]

/-! ### A notice dropped (R142) -/

theorem find?_overflow_eq_none {q : List Notice} (h : ∀ e ∈ q, e.kind ≠ .overflow) : q.find? Notice.isOverflow = none := by
  simpa using h

theorem find?_overflow_first {front : List Notice} {e : Notice} (he : e.kind = .overflow) (hfront : ∀ x ∈ front, x.kind ≠ .overflow)
    (back : List Notice) : (front ++ e :: back).find? Notice.isOverflow = some e := by
  simp [List.find?_append, find?_overflow_eq_none hfront, he]

/-- Counting in the OVERFLOW entry leaves ordinary entries alone. -/
theorem map_countInOverflow {q : List Notice} (h : ∀ e ∈ q, e.kind ≠ .overflow) (cycle : CycleNo) :
    q.map (countInOverflow cycle) = q :=
  (List.map_congr_left fun e he => if_neg (by simpa using h e he)).trans q.map_id

/-- A notice that is not folded makes an entry while there is room, and is dropped otherwise. -/
theorem NoticeUnit.take_of_not_folded {r : Raised} {n : NoticeUnit} (h : ∀ e ∈ n.queue, ¬ r.FoldsInto e) :
    n.take r = if ordinaryCount n.queue < Config.noticeEntries then { n with queue := n.queue ++ [r.entry] } else n.drop r.cycle := by
  rw [NoticeUnit.take, foldNotice_eq_none.2 h]

/-- Settles O42, by the three outcomes of R141 and R142. -/
theorem noticeTaken : Obligations.NoticeTaken := by
  intro r n fits
  refine ⟨fun front e back hq he hfront => ?_, fun hnone => ⟨fun hroom => ?_, fun hfull => ?_⟩⟩
  · rw [NoticeUnit.take, hq, foldNotice_first he hfront]
    rfl
  · rw [NoticeUnit.take_of_not_folded hnone, ordinaryCount_eq, if_pos hroom]
    rfl
  · rw [NoticeUnit.take_of_not_folded hnone, ordinaryCount_eq, if_neg (Nat.not_lt.2 hfull)]
    refine ⟨fun ho => ?_, fun front e back hq he hfront hback => ?_⟩
    · rw [NoticeUnit.drop, find?_overflow_eq_none ho]
      rfl
    · rw [NoticeUnit.drop, hq, find?_overflow_first he hfront]
      refine ⟨fun hs => ?_, fun hs => ?_⟩
      · simp only [(Notice.isUnsent_iff e).2 hs, if_true, List.map_append, List.map_cons, map_countInOverflow hfront,
          map_countInOverflow hback, countInOverflow, (Notice.isOverflow_iff e).2 he]
        rfl
      · simp only [mt (Notice.isUnsent_iff e).1 hs]
        rw [← hq]
        rfl

/-! ### What is offered (R144) -/

/-- The entry is due for resend, with its number. -/
def Notice.IsDue (e : Notice) : Prop := ∃ num, e.state = .sent num true

theorem takeDue_cons_of_not {e : Notice} (h : ¬ e.IsDue) (q : List Notice) :
    takeDue (e :: q) = (takeDue q).map fun p => (p.1, e :: p.2) := by
  rw [takeDue]
  split
  · exact absurd ⟨_, ‹_›⟩ h
  · rfl

theorem takeDue_cons_of_due {e : Notice} {num : Byte} (h : e.state = .sent num true) (q : List Notice) :
    takeDue (e :: q) = some (noticeFrame e num, { e with state := .sent num false } :: q) := by
  simp only [takeDue, h]

/-- The first entry that is due is sent again. -/
theorem takeDue_first {front : List Notice} {e : Notice} {num : Byte} (he : e.state = .sent num true)
    (hfront : ∀ x ∈ front, ¬ x.IsDue) (back : List Notice) :
    takeDue (front ++ e :: back) = some (noticeFrame e num, front ++ { e with state := .sent num false } :: back) := by
  induction front with
  | nil => exact takeDue_cons_of_due he back
  | cons x front ih =>
    obtain ⟨hx, hrest⟩ := List.forall_mem_cons.1 hfront
    rw [List.cons_append, takeDue_cons_of_not hx, ih hrest]
    rfl

theorem takeDue_eq_none {q : List Notice} : takeDue q = none ↔ ∀ e ∈ q, ¬ e.IsDue := by
  induction q with
  | nil => simp [takeDue]
  | cons e q ih =>
    by_cases he : e.IsDue
    · obtain ⟨num, hs⟩ := he
      simpa [takeDue_cons_of_due hs] using fun h : ¬ e.IsDue => absurd ⟨num, hs⟩ h
    · simp [takeDue_cons_of_not he, he, ih]

theorem takeUnsent_cons_of_sent {e : Notice} (h : e.state ≠ .unsent) (num : Byte) (q : List Notice) :
    takeUnsent num (e :: q) = (takeUnsent num q).map fun p => (p.1, e :: p.2) := by
  rw [takeUnsent]
  split
  · contradiction
  · rfl

/-- The first UNSENT entry is sent. -/
theorem takeUnsent_first {front : List Notice} {e : Notice} (he : e.state = .unsent) (hfront : ∀ x ∈ front, x.state ≠ .unsent)
    (num : Byte) (back : List Notice) :
    takeUnsent num (front ++ e :: back) = some (noticeFrame e num, front ++ { e with state := .sent num false } :: back) := by
  induction front with
  | nil => simp only [List.nil_append, takeUnsent, he]
  | cons x front ih =>
    obtain ⟨hx, hrest⟩ := List.forall_mem_cons.1 hfront
    rw [List.cons_append, takeUnsent_cons_of_sent hx, ih hrest]
    rfl

theorem takeUnsent_eq_none {q : List Notice} (h : ∀ e ∈ q, e.state ≠ .unsent) (num : Byte) : takeUnsent num q = none := by
  induction q with
  | nil => rfl
  | cons e q ih =>
    obtain ⟨he, hrest⟩ := List.forall_mem_cons.1 h
    rw [takeUnsent_cons_of_sent he, ih hrest]
    rfl

/-- With no entry due, the window decides whether an UNSENT entry is offered (R145). -/
theorem NoticeUnit.offer_of_none_due {n : NoticeUnit} (h : ∀ e ∈ n.queue, ¬ e.IsDue) (now : Nat) :
    n.offer now = if sentCount n.queue < Config.noticeWindow then
      (takeUnsent n.nextNum n.queue).map fun p =>
        (p.1, { n with
          queue := p.2
          nextNum := n.nextNum + 1
          timer := if sentCount n.queue = 0 then some (now + Config.retransmitTime) else n.timer })
      else none := by
  rw [NoticeUnit.offer, takeDue_eq_none.2 h]

/-- Settles O43, by the order of R144: an entry due, then the window, then an UNSENT entry. -/
theorem noticeOffered : Obligations.NoticeOffered := by
  intro now n due code frame
  have framed : ∀ e num, frame e num = noticeFrame e num := by
    rintro ⟨kind⟩ num
    cases kind <;> rfl
  refine ⟨fun front e back num hq he hfront => ?_,
    fun hnone => ⟨fun hfull => ?_, fun hsent => ?_, fun front e back hq he hfront hroom => ?_⟩⟩
  · rw [NoticeUnit.offer, hq, takeDue_first he hfront, framed]
  · rw [NoticeUnit.offer_of_none_due hnone, sentCount_eq, if_neg (Nat.not_lt.2 hfull)]
  · rw [NoticeUnit.offer_of_none_due hnone, takeUnsent_eq_none hsent]
    exact ite_self none
  · rw [NoticeUnit.offer_of_none_due hnone, sentCount_eq, if_pos hroom, framed]
    simp only [List.length_eq_zero_iff]
    rw [hq, takeUnsent_first he hfront]
    rfl

/-! ### An acknowledgment (R149, R150) -/

theorem Notice.hasNumber_iff (num : Byte) (e : Notice) : e.hasNumber num = true ↔ ∃ due, e.state = .sent num due := by
  unfold Notice.hasNumber
  split
  · next n due hs => simp [hs]
  · next hs => simp [hs]

/-- The entry of the number goes, and the SENT entries before it. -/
theorem removeThrough_first {num : Byte} {front : List Notice} {e : Notice} (he : e.hasNumber num = true)
    (hfront : ∀ x ∈ front, ¬ x.hasNumber num = true ∧ x.state ≠ .unsent) (back : List Notice) :
    removeThrough num (front ++ e :: back) = some (back, front ++ [e]) := by
  induction front with
  | nil => simp [removeThrough, he]
  | cons x front ih =>
    obtain ⟨⟨hx, hs⟩, hrest⟩ := List.forall_mem_cons.1 hfront
    simp [removeThrough, hx, hs, ih hrest]

theorem removeThrough_eq_none {num : Byte} {q : List Notice} (h : ∀ e ∈ q, ¬ e.hasNumber num = true) :
    removeThrough num q = none := by
  induction q with
  | nil => rfl
  | cons e q ih =>
    obtain ⟨he, hrest⟩ := List.forall_mem_cons.1 h
    simp [removeThrough, he, ih hrest]

/-- An ACK of a number that no entry has. -/
theorem NoticeUnit.ack_unknown {num : Byte} {n : NoticeUnit} (h : ∀ e ∈ n.queue, ¬ e.hasNumber num = true) (now : Nat) :
    n.ack now num = n := by
  rw [NoticeUnit.ack, removeThrough_eq_none h]

/-- An ACK of the number of an entry that stands behind SENT ones alone. -/
theorem NoticeUnit.ack_first {num : Byte} {n : NoticeUnit} {front back : List Notice} {e : Notice} (hq : n.queue = front ++ e :: back)
    (he : e.hasNumber num = true) (hfront : ∀ x ∈ front, ¬ x.hasNumber num = true ∧ x.state ≠ .unsent) (now : Nat) :
    n.ack now num = NoticeUnit.renewOverflow (front ++ [e])
      { n with queue := back, timer := if sentCount back = 0 then none else some (now + Config.retransmitTime) } := by
  rw [NoticeUnit.ack, hq, removeThrough_first he hfront]

/-- Settles O44: the entries that stay are those behind the acknowledged one. -/
theorem ackTaken : Obligations.AckTaken := by
  intro now num n numbered
  have hnum : ∀ e, numbered e ↔ e.hasNumber num = true := fun e => (Notice.hasNumber_iff num e).symm
  simp only [hnum]
  refine ⟨fun h => NoticeUnit.ack_unknown h now, fun front e back hq he hfront => ?_⟩
  have timer : (if sentCount back = 0 then none else some (now + Config.retransmitTime)) =
      if ∃ x ∈ back, x.state ≠ .unsent then some (now + 100000) else none := by
    rw [← ite_not]
    exact if_congr (by simp [sentCount_eq_zero]) rfl rfl
  rw [NoticeUnit.ack_first hq he hfront, timer, NoticeUnit.renewOverflow]
  exact if_congr (by simp) rfl rfl

/-! ### The Notice Unit's own events (R148, R167) -/

/-- Settles O45: both events hand over to the arbiter. -/
theorem retransmitAndNoticeEnd : Obligations.RetransmitAndNoticeEnd := by
  intro s hw
  refine ⟨fun ht => ?_, fun x hx hsource hend => ?_⟩
  · have due : retransmitDue s = true := by simp [retransmitDue, hw, ht]
    exact congrArg Host.Outcome.next (if_pos due)
  · have due : frameDue .notice s = true := by simp [frameDue, hw, hx, hsource, hend]
    have ended : exec .noticeFrameSent s = .next (arbitrate (freeTransmitter s)) := congrArg Host.Outcome.next (if_pos due)
    rw [ended]
    refine ⟨fun r hr => ?_, fun hr => ?_⟩
    · rw [arbitrate_reply (s := freeTransmitter s) hw rfl hr]
      rfl
    · rw [arbitrate_notice (s := freeTransmitter s) hw rfl hr]
      rfl

end Sys2Proof.Machine
end

section
/-! PROOFS. The law of the Notice Unit (R140, R142, R145, R147, R148, R152), with its queue taken apart into the SENT entries in front
and the UNSENT ones behind them; and that whatever happens to the Notice Unit keeps it. -/

namespace Sys2Proof.Machine

/-! ### The first entry of a kind -/

theorem exists_first {α : Type} {p : α → Prop} {l : List α} (h : ∃ x ∈ l, p x) :
    ∃ front x back, l = front ++ x :: back ∧ p x ∧ ∀ y ∈ front, ¬ p y := by
  induction l with
  | nil => simp at h
  | cons a l ih =>
    by_cases ha : p a
    · exact ⟨[], a, l, rfl, ha, by simp⟩
    · obtain ⟨front, x, back, rfl, hx, hfront⟩ := ih (by simpa [ha] using h)
      exact ⟨a :: front, x, back, rfl, hx, by simpa [ha] using hfront⟩

/-- What holds of every entry still does with one entry replaced. -/
theorem forall_mem_replaced {α : Type} {p : α → Prop} {front back : List α} {a b : α} (h : ∀ x ∈ front ++ a :: back, p x)
    (hab : p a → p b) : ∀ x ∈ front ++ b :: back, p x := by
  simp only [List.forall_mem_append, List.forall_mem_cons] at h ⊢
  obtain ⟨hfront, ha, hback⟩ := h
  exact ⟨hfront, hab ha, hback⟩

theorem one_le_satSucc {limit n : Nat} (h : 1 ≤ n) : 1 ≤ satSucc limit n := by
  unfold satSucc
  split <;> omega

/-! ### What the law reads of an entry -/

theorem Notice.number?_eq_none {e : Notice} : e.number? = none ↔ e.state = .unsent := by
  unfold Notice.number?
  split <;> simp [*]

theorem Notice.resendIsDue_iff {e : Notice} : e.resendIsDue = true ↔ e.IsDue := by
  unfold Notice.resendIsDue Notice.IsDue
  split <;> simp [*]

/-- An entry with its kind, its subject and its number alone. -/
def Notice.outline (e : Notice) : Notice :=
  { kind := e.kind, subject := e.subject, count := 0, cycle := 0, detail := 0,
    state := match e.number? with
      | some num => .sent num false
      | none => .unsent }

theorem Notice.outline_eq {a b : Notice} (hk : a.kind = b.kind) (hs : a.subject = b.subject) (hn : a.number? = b.number?) :
    a.outline = b.outline := by
  unfold Notice.outline
  rw [hk, hs, hn]

@[simp] theorem Notice.outline_number? (e : Notice) : e.outline.number? = e.number? := by
  unfold Notice.outline
  cases e.number? <;> rfl

@[simp] theorem Notice.outline_isOverflow (e : Notice) : e.outline.isOverflow = e.isOverflow := rfl

@[simp] theorem Notice.outline_matches (a b : Notice) : a.outline.matches b.outline = a.matches b := rfl

/-- Entries of one outline stand in the two lists at the same place. -/
theorem exists_of_outlines {q q' : List Notice} (h : q'.map Notice.outline = q.map Notice.outline) {e : Notice} (he : e ∈ q') :
    ∃ x ∈ q, x.outline = e.outline :=
  List.mem_map.1 (h ▸ List.mem_map_of_mem he)

theorem number?_of_outline {a b : Notice} (h : a.outline = b.outline) : a.number? = b.number? := by
  rw [← a.outline_number?, h, b.outline_number?]

theorem ordinaryCount_map_outline (q : List Notice) : ordinaryCount (q.map Notice.outline) = ordinaryCount q := by
  simp [ordinaryCount, List.countP_map, Function.comp_def]

theorem countP_isOverflow_map_outline (q : List Notice) :
    (q.map Notice.outline).countP Notice.isOverflow = q.countP Notice.isOverflow := by
  simp [List.countP_map, Function.comp_def]

theorem sentCount_of_outlines {q q' : List Notice} (h : q'.map Notice.outline = q.map Notice.outline) :
    sentCount q' = 0 ↔ sentCount q = 0 := by
  have one : ∀ {q q' : List Notice}, q'.map Notice.outline = q.map Notice.outline → sentCount q' = 0 → sentCount q = 0 := by
    intro q q' h hz
    rw [sentCount_eq_zero] at hz ⊢
    intro e he
    obtain ⟨x, hx, ho⟩ := exists_of_outlines h.symm he
    rw [← Notice.number?_eq_none, ← number?_of_outline ho, Notice.number?_eq_none]
    exact hz x hx
  exact ⟨one h, one h.symm⟩

theorem countP_isOverflow_eq_zero {q : List Notice} : q.countP Notice.isOverflow = 0 ↔ ∀ e ∈ q, e.kind ≠ .overflow := by
  simp [List.countP_eq_zero]

/-! ### Consecutive numbers (R144) -/

/-- The `k` numbers given before the number `next`. -/
def numbersBefore (next : Byte) (k : Nat) : List (Option Byte) :=
  (List.range k).map fun i => some (next - byteOf k + byteOf i)

theorem byteOf_add (a b : Nat) : byteOf (a + b) = byteOf a + byteOf b := BitVec.ofNat_add a b

@[simp] theorem length_numbersBefore (next : Byte) (k : Nat) : (numbersBefore next k).length = k := by simp [numbersBefore]

theorem numbersBefore_succ (next : Byte) (k : Nat) : numbersBefore (next + 1) (k + 1) = numbersBefore next k ++ [some next] := by
  have earlier : ∀ i, next + 1 - byteOf (k + 1) + byteOf i = next - byteOf k + byteOf i := fun i => by
    rw [byteOf_add, show byteOf 1 = 1 from rfl]
    ring
  unfold numbersBefore
  rw [List.range_succ, List.map_append]
  simp only [earlier, List.map_singleton, BitVec.sub_add_cancel]

/-- The last of the numbers given are numbers given last. -/
theorem numbersBefore_drop (next : Byte) (a b : Nat) : (numbersBefore next (a + b)).drop a = numbersBefore next b := by
  have later : ∀ i, next - byteOf (a + b) + byteOf (a + i) = next - byteOf b + byteOf i := fun i => by
    rw [byteOf_add, byteOf_add]
    ring
  unfold numbersBefore
  rw [List.range_add, List.map_append, List.drop_left' (by simp), List.map_map]
  simp only [Function.comp_def, later]

/-! ### The queue (R140, R145, R152) -/

/-- What the law says of the queue: SENT entries with the numbers given last, UNSENT entries behind them. -/
structure QueueLaw (next : Byte) (sent waiting : List Notice) : Prop where
  numbered : sent.map Notice.number? = numbersBefore next sent.length
  window : sent.length ≤ Config.noticeWindow
  unsent : ∀ e ∈ waiting, e.state = .unsent
  ordinary : ordinaryCount (sent ++ waiting) ≤ Config.noticeEntries
  overflows : (sent ++ waiting).countP Notice.isOverflow ≤ 1
  distinct : waiting.Pairwise fun a b => a.matches b = false

namespace QueueLaw

variable {next : Byte} {sent waiting : List Notice}

theorem state_ne (h : QueueLaw next sent waiting) : ∀ e ∈ sent, e.state ≠ .unsent := by
  intro e he hs
  have hnum : e.number? ∈ numbersBefore next sent.length := h.numbered ▸ List.mem_map_of_mem he
  rw [Notice.number?_eq_none.2 hs] at hnum
  simp [numbersBefore] at hnum

theorem mem_sent (h : QueueLaw next sent waiting) {e : Notice} (he : e ∈ sent ++ waiting) (hs : e.state ≠ .unsent) : e ∈ sent :=
  (List.mem_append.1 he).resolve_right fun hw => hs (h.unsent e hw)

theorem sentCount_eq (h : QueueLaw next sent waiting) : sentCount (sent ++ waiting) = sent.length := by
  have all : sentCount sent = sent.length := List.countP_eq_length.2 fun e he => (Notice.isSent_iff e).2 (h.state_ne e he)
  have rest : sentCount waiting = 0 := (sentCount_eq_zero waiting).2 h.unsent
  exact List.countP_append.trans (by rw [← sentCount, ← sentCount, all, rest, Nat.add_zero])

theorem filter_isUnsent (h : QueueLaw next sent waiting) : (sent ++ waiting).filter Notice.isUnsent = waiting := by
  have dropped : sent.filter Notice.isUnsent = [] :=
    List.filter_eq_nil_iff.2 fun e he => mt (Notice.isUnsent_iff e).1 (h.state_ne e he)
  have kept : waiting.filter Notice.isUnsent = waiting :=
    List.filter_eq_self.2 fun e he => (Notice.isUnsent_iff e).2 (h.unsent e he)
  rw [List.filter_append, dropped, kept, List.nil_append]

/-- The law reads the outlines of the entries alone. -/
theorem of_outlines (h : QueueLaw next sent waiting) {q : List Notice}
    (hq : q.map Notice.outline = (sent ++ waiting).map Notice.outline) :
    ∃ sent' waiting', q = sent' ++ waiting' ∧ QueueLaw next sent' waiting' := by
  have ordinary := ordinaryCount_map_outline q
  have overflows := countP_isOverflow_map_outline q
  rw [hq, ordinaryCount_map_outline] at ordinary
  rw [hq, countP_isOverflow_map_outline] at overflows
  rw [List.map_append, List.map_eq_append_iff] at hq
  obtain ⟨sent', waiting', rfl, hs, hw⟩ := hq
  have length : sent'.length = sent.length := by simpa using congrArg List.length hs
  have numbers : sent'.map Notice.number? = sent.map Notice.number? := by
    simpa [Function.comp_def] using congrArg (List.map Notice.number?) hs
  have pairs : (waiting.map Notice.outline).Pairwise fun a b => a.matches b = false := by
    simpa [List.pairwise_map] using h.distinct
  refine ⟨sent', waiting', rfl, by rw [numbers, length, h.numbered], length ▸ h.window, fun e he => ?_, ordinary ▸ h.ordinary,
    overflows ▸ h.overflows, by simpa [← hw, List.pairwise_map] using pairs⟩
  obtain ⟨x, hx, ho⟩ := exists_of_outlines hw he
  rw [← Notice.number?_eq_none, ← number?_of_outline ho, Notice.number?_eq_none]
  exact h.unsent x hx

/-- An UNSENT entry joins the tail. -/
theorem joined (h : QueueLaw next sent waiting) {e : Notice} (he : e.state = .unsent) (hnew : ∀ x ∈ waiting, x.matches e = false)
    (hroom : ordinaryCount (sent ++ waiting ++ [e]) ≤ Config.noticeEntries)
    (hover : (sent ++ waiting ++ [e]).countP Notice.isOverflow ≤ 1) : QueueLaw next sent (waiting ++ [e]) where
  numbered := h.numbered
  window := h.window
  unsent := List.forall_mem_append.2 ⟨h.unsent, by simpa using he⟩
  ordinary := by rwa [← List.append_assoc]
  overflows := by rwa [← List.append_assoc]
  distinct := List.pairwise_append.2 ⟨h.distinct, List.pairwise_singleton _ _, by simpa using hnew⟩

/-- The first UNSENT entry is sent with the next number. -/
theorem sends {e : Notice} (h : QueueLaw next sent (e :: waiting)) (hroom : sent.length < Config.noticeWindow) :
    QueueLaw (next + 1) (sent ++ [{ e with state := .sent next false }]) waiting := by
  obtain ⟨numbered, -, unsent, ordinary, overflows, distinct⟩ := h
  refine ⟨?_, by simpa using hroom, fun x hx => unsent x (List.mem_cons_of_mem e hx), ?_, ?_, (List.pairwise_cons.1 distinct).2⟩
  · rw [List.map_append, numbered, List.length_append, List.length_singleton, numbersBefore_succ]
    rfl
  · simpa [ordinaryCount, List.countP_cons, Notice.isOverflow] using ordinary
  · simpa [List.countP_cons, Notice.isOverflow] using overflows

/-- The oldest SENT entries go. -/
theorem behind {gone : List Notice} (h : QueueLaw next (gone ++ sent) waiting) : QueueLaw next sent waiting := by
  obtain ⟨numbered, window, unsent, ordinary, overflows, distinct⟩ := h
  rw [List.length_append] at numbered window
  rw [ordinaryCount, List.append_assoc, List.countP_append] at ordinary
  rw [List.append_assoc, List.countP_append] at overflows
  refine ⟨?_, by omega, unsent, by rw [ordinaryCount]; omega, by omega, distinct⟩
  rw [← numbersBefore_drop, ← numbered, List.map_append, List.drop_left' (by simp)]

end QueueLaw

/-! ### The Notice Unit (R140, R142, R147, R148) -/

/-- What the notice law says of the Notice Unit. -/
structure NoticeUnit.Lawful (n : NoticeUnit) : Prop where
  queue : ∃ sent waiting, n.queue = sent ++ waiting ∧ QueueLaw n.nextNum sent waiting
  counts : ∀ e ∈ n.queue, 1 ≤ e.count ∧ e.count ≤ 255
  tally_le : n.tally ≤ 255
  tallied : n.tally ≠ 0 → ∃ e ∈ n.queue, e.isOverflow = true ∧ e.isSent = true
  stopped : sentCount n.queue = 0 → n.timer = none
  due : n.timer = none → ∀ e ∈ n.queue, e.isSent = true → e.resendIsDue = true

/-- The notice law is the law of the Notice Unit, and that no OVERFLOW is on its way (R140). -/
theorem noticeLaw_iff {s : State} : NoticeLaw s ↔ s.notices.Lawful ∧ ∀ r ∈ s.raising, r.kind ≠ .overflow := by
  constructor
  · rintro ⟨ordinary, overflows, window, numbered, distinct, counts, tally_le, tallied, stopped, due, held⟩
    refine ⟨⟨?_, counts, tally_le, tallied, stopped, due⟩, held⟩
    obtain ⟨sent, waiting, hq, hs, hw⟩ := List.map_eq_append_iff.1 numbered
    have length : sent.length = sentCount s.notices.queue := by simpa using congrArg List.length hs
    rw [← length] at hs window
    have unsent : ∀ e ∈ waiting, e.state = .unsent := by
      intro e he
      have hnum : e.number? ∈ waiting.map Notice.number? := List.mem_map_of_mem he
      rw [hw] at hnum
      exact Notice.number?_eq_none.1 (List.eq_of_mem_replicate hnum)
    have kept : waiting.filter Notice.isUnsent = waiting :=
      List.filter_eq_self.2 fun e he => (Notice.isUnsent_iff e).2 (unsent e he)
    rw [hq] at ordinary overflows distinct
    exact ⟨sent, waiting, hq, hs, window, unsent, ordinary, overflows,
      kept ▸ distinct.sublist ((List.sublist_append_right sent waiting).filter _)⟩
  · rintro ⟨⟨⟨sent, waiting, hq, h⟩, counts, tally_le, tallied, stopped, due⟩, held⟩
    have sentLength : sentCount s.notices.queue = sent.length := hq ▸ h.sentCount_eq
    have unnumbered : waiting.map Notice.number? = List.replicate waiting.length none := by
      refine List.eq_replicate_iff.2 ⟨List.length_map _, fun x hx => ?_⟩
      obtain ⟨e, he, rfl⟩ := List.mem_map.1 hx
      exact Notice.number?_eq_none.2 (h.unsent e he)
    refine ⟨hq ▸ h.ordinary, hq ▸ h.overflows, sentLength ▸ h.window, ?_, ?_, counts, tally_le, tallied, stopped, due, held⟩
    · rw [sentLength, hq, List.map_append, h.numbered, unnumbered, List.length_append, Nat.add_sub_cancel_left]
      rfl
    · rw [hq, h.filter_isUnsent]
      exact h.distinct

theorem lawful_emptied : NoticeUnit.emptied.Lawful where
  queue := ⟨[], [], rfl, rfl, Nat.zero_le _, nofun, Nat.zero_le _, Nat.zero_le _, .nil⟩
  counts := nofun
  tally_le := Nat.zero_le _
  tallied := fun h => absurd rfl h
  stopped := fun _ => rfl
  due := fun _ => nofun

namespace NoticeUnit.Lawful

variable {n : NoticeUnit}

/-- Of the queue the law reads the outlines of the entries, their counts, and which are due while the timer stands still. -/
theorem of_outlines (h : n.Lawful) {m : NoticeUnit} (hq : m.queue.map Notice.outline = n.queue.map Notice.outline)
    (hnum : m.nextNum = n.nextNum) (htally : m.tally = n.tally) (hcounts : ∀ e ∈ m.queue, 1 ≤ e.count ∧ e.count ≤ 255)
    (hstopped : sentCount m.queue = 0 → m.timer = none)
    (hdue : m.timer = none → ∀ e ∈ m.queue, e.isSent = true → e.resendIsDue = true) : m.Lawful where
  queue := by
    obtain ⟨sent, waiting, hn, law⟩ := h.queue
    rw [hnum]
    exact law.of_outlines (hn ▸ hq)
  counts := hcounts
  tally_le := htally ▸ h.tally_le
  tallied := by
    intro ht
    obtain ⟨e, he, hover, hsent⟩ := h.tallied (htally ▸ ht)
    obtain ⟨x, hx, ho⟩ := exists_of_outlines hq.symm he
    refine ⟨x, hx, ?_, ?_⟩
    · rwa [← x.outline_isOverflow, ho, e.outline_isOverflow]
    · rw [Notice.isSent_iff, ne_eq, ← Notice.number?_eq_none] at hsent ⊢
      rwa [number?_of_outline ho]
  stopped := hstopped
  due := hdue

/-! #### Raised notices -/

/-- An UNSENT entry counts one notice more. -/
theorem counted (h : n.Lawful) {front back : List Notice} {e : Notice} (hq : n.queue = front ++ e :: back) (he : e.state = .unsent)
    (cycle : CycleNo) (detail : Nat) :
    NoticeUnit.Lawful { n with
      queue := front ++ { e with count := satSucc 255 e.count, cycle := cycle, detail := detail } :: back } := by
  have outlines : (front ++ { e with count := satSucc 255 e.count, cycle := cycle, detail := detail } :: back).map Notice.outline =
      n.queue.map Notice.outline := by
    rw [hq]
    simp only [List.map_append, List.map_cons]
    rfl
  refine h.of_outlines outlines rfl rfl ?_ (fun hz => h.stopped ((sentCount_of_outlines outlines).1 hz)) fun ht => ?_
  · exact forall_mem_replaced (hq ▸ h.counts) fun ⟨least, greatest⟩ => ⟨one_le_satSucc least, satSucc_le greatest⟩
  · exact forall_mem_replaced (hq ▸ h.due ht) fun _ hs => absurd he ((Notice.isSent_iff _).1 hs)

/-- An UNSENT entry that none of the UNSENT ones matches joins the tail. -/
theorem joined (h : n.Lawful) {e : Notice} (he : e.state = .unsent) (hcount : 1 ≤ e.count ∧ e.count ≤ 255)
    (hnew : ∀ x ∈ n.queue, x.state = .unsent → x.matches e = false)
    (hroom : ordinaryCount (n.queue ++ [e]) ≤ Config.noticeEntries)
    (hover : (n.queue ++ [e]).countP Notice.isOverflow ≤ 1) : NoticeUnit.Lawful { n with queue := n.queue ++ [e] } where
  queue := by
    obtain ⟨sent, waiting, hq, law⟩ := h.queue
    rw [hq] at hnew hroom hover
    refine ⟨sent, waiting ++ [e], by simp [hq], law.joined he (fun x hx => ?_) hroom hover⟩
    exact hnew x (List.mem_append_right sent hx) (law.unsent x hx)
  counts := List.forall_mem_append.2 ⟨h.counts, by simpa using hcount⟩
  tally_le := h.tally_le
  tallied := by
    intro ht
    obtain ⟨x, hx, hx'⟩ := h.tallied ht
    exact ⟨x, List.mem_append_left [e] hx, hx'⟩
  stopped := by
    intro hz
    refine h.stopped ((sentCount_eq_zero n.queue).2 fun x hx => ?_)
    exact (sentCount_eq_zero _).1 hz x (List.mem_append_left [e] hx)
  due := by
    intro ht x hx hs
    obtain hx | rfl := by simpa using hx
    · exact h.due ht x hx hs
    · exact absurd he ((Notice.isSent_iff _).1 hs)

/-- A queue without OVERFLOW has room for one (R142, R150). -/
theorem joined_overflow (h : n.Lawful) (hnone : ∀ e ∈ n.queue, e.kind ≠ .overflow) {count : Nat} (hcount : 1 ≤ count ∧ count ≤ 255)
    (cycle : CycleNo) : NoticeUnit.Lawful { n with queue := n.queue ++ [overflowEntry count cycle] } := by
  refine h.joined rfl hcount (fun x hx _ => ?_) ?_ ?_
  · simp [Notice.matches, overflowEntry, hnone x hx]
  · obtain ⟨sent, waiting, hq, law⟩ := h.queue
    rw [ordinaryCount, List.countP_append, ← ordinaryCount]
    exact hq ▸ law.ordinary
  · rw [List.countP_append, countP_isOverflow_eq_zero.2 hnone]
    exact Nat.le_refl 1

/-- There is one OVERFLOW entry at most (R140). -/
theorem overflow_alone (h : n.Lawful) {front back : List Notice} {e : Notice} (hq : n.queue = front ++ e :: back)
    (he : e.kind = .overflow) : (∀ x ∈ front, x.kind ≠ .overflow) ∧ ∀ x ∈ back, x.kind ≠ .overflow := by
  obtain ⟨sent, waiting, hn, law⟩ := h.queue
  have one := law.overflows
  rw [← hn, hq, List.countP_append, List.countP_cons, (Notice.isOverflow_iff e).2 he, if_pos rfl] at one
  exact ⟨countP_isOverflow_eq_zero.1 (by omega), countP_isOverflow_eq_zero.1 (by omega)⟩

/-- A dropped notice makes an OVERFLOW entry, or is counted in it or in the tally (R142). -/
theorem drop (h : n.Lawful) (cycle : CycleNo) : (n.drop cycle).Lawful := by
  by_cases hover : ∃ e ∈ n.queue, e.kind = .overflow
  · obtain ⟨front, e, back, hq, he, hfront⟩ := exists_first hover
    obtain ⟨-, hback⟩ := h.overflow_alone hq he
    rw [NoticeUnit.drop, hq, find?_overflow_first he hfront]
    by_cases hs : e.state = .unsent
    · have counted := h.counted hq hs cycle e.detail
      simpa [(Notice.isUnsent_iff e).2 hs, map_countInOverflow hfront, map_countInOverflow hback, countInOverflow,
        (Notice.isOverflow_iff e).2 he] using counted
    · simp only [mt (Notice.isUnsent_iff e).1 hs]
      rw [← hq]
      have sentOverflow : ∃ x ∈ n.queue, x.isOverflow = true ∧ x.isSent = true :=
        ⟨e, by simp [hq], (Notice.isOverflow_iff e).2 he, (Notice.isSent_iff e).2 hs⟩
      exact ⟨h.queue, h.counts, satSucc_le h.tally_le, fun _ => sentOverflow, h.stopped, h.due⟩
  · have hnone : ∀ e ∈ n.queue, e.kind ≠ .overflow := by simpa using hover
    rw [NoticeUnit.drop, find?_overflow_eq_none hnone]
    exact h.joined_overflow hnone (by decide) cycle

/-- A raised notice is taken (R141, R142). -/
theorem take (h : n.Lawful) {r : Raised} (hr : r.kind ≠ .overflow) : (n.take r).Lawful := by
  by_cases hfold : ∃ e ∈ n.queue, r.FoldsInto e
  · obtain ⟨front, e, back, hq, he, hfront⟩ := exists_first hfold
    have folded := h.counted hq he.1 r.cycle r.detail
    rw [NoticeUnit.take, hq, foldNotice_first he hfront]
    exact folded
  · have hnone : ∀ e ∈ n.queue, ¬ r.FoldsInto e := by simpa using hfold
    have ordinary : r.entry.isOverflow = false := Bool.eq_false_iff.2 (mt (Notice.isOverflow_iff _).1 hr)
    rw [NoticeUnit.take_of_not_folded hnone]
    split
    · next hroom =>
      refine h.joined rfl (show 1 ≤ 1 ∧ 1 ≤ 255 by decide) (fun x hx hs => ?_) ?_ ?_
      · refine Bool.eq_false_iff.2 fun same => hnone x hx ⟨hs, ?_⟩
        simpa [Notice.matches, Raised.entry] using same
      · rw [ordinaryCount, List.countP_append, ← ordinaryCount]
        simpa [ordinary] using hroom
      · obtain ⟨sent, waiting, hq, law⟩ := h.queue
        rw [List.countP_append]
        simpa [ordinary] using hq ▸ law.overflows
    · exact h.drop r.cycle

/-! #### Frames sent -/

/-- An entry due for resend is sent again (R144, R147). -/
theorem resends (h : n.Lawful) {front back : List Notice} {e : Notice} {num : Byte} (hq : n.queue = front ++ e :: back)
    (he : e.state = .sent num true) (expiry : Nat) :
    NoticeUnit.Lawful { n with queue := front ++ { e with state := .sent num false } :: back, timer := some expiry } := by
  have number : e.number? = some num := by simp [Notice.number?, he]
  have same : Notice.outline { e with state := .sent num false } = e.outline := Notice.outline_eq rfl rfl number.symm
  have outlines : (front ++ { e with state := .sent num false } :: back).map Notice.outline = n.queue.map Notice.outline := by
    rw [hq, List.map_append, List.map_cons, same, List.map_append, List.map_cons]
  refine h.of_outlines outlines rfl rfl (forall_mem_replaced (a := e) (hq ▸ h.counts) id) (fun hz => ?_) nofun
  have unsent := (sentCount_eq_zero _).1 ((sentCount_of_outlines outlines).1 hz) e (by simp [hq])
  rw [he] at unsent
  cases unsent

/-- While the timer stands still no SENT entry waits for an ACK without being due (R147, R148). -/
theorem timer_isSome (h : n.Lawful) (hnone : ∀ e ∈ n.queue, ¬ e.IsDue) (hs : sentCount n.queue ≠ 0) : n.timer ≠ none := by
  intro ht
  refine hs ((sentCount_eq_zero _).2 fun e he => ?_)
  by_contra hsent
  exact hnone e he (Notice.resendIsDue_iff.1 (h.due ht e he ((Notice.isSent_iff e).2 hsent)))

/-- The first UNSENT entry is sent, with the next number (R144, R145, R147). -/
theorem sends {sent waiting : List Notice} {e : Notice} (h : n.Lawful) (hq : n.queue = sent ++ e :: waiting)
    (law : QueueLaw n.nextNum sent (e :: waiting)) (hnone : ∀ e ∈ n.queue, ¬ e.IsDue) (hroom : sent.length < Config.noticeWindow)
    (expiry : Nat) :
    NoticeUnit.Lawful { n with
      queue := sent ++ { e with state := .sent n.nextNum false } :: waiting
      nextNum := n.nextNum + 1
      timer := if sentCount n.queue = 0 then some expiry else n.timer } where
  queue := ⟨sent ++ [{ e with state := .sent n.nextNum false }], waiting, by simp, law.sends hroom⟩
  counts := forall_mem_replaced (a := e) (hq ▸ h.counts) id
  tally_le := h.tally_le
  tallied := by
    intro ht
    obtain ⟨x, hx, hover, hs⟩ := h.tallied ht
    exact ⟨x, List.mem_append_left _ (law.mem_sent (hq ▸ hx) ((Notice.isSent_iff x).1 hs)), hover, hs⟩
  stopped := by
    intro hz
    have unsent := (sentCount_eq_zero _).1 hz { e with state := .sent n.nextNum false } (by simp)
    cases unsent
  due := by
    intro ht
    dsimp only at ht
    split at ht
    · cases ht
    · exact absurd ht (h.timer_isSome hnone ‹_›)

/-- What the transmitter takes (R144). -/
theorem offer (h : n.Lawful) {now : Nat} {f : Frame} {m : NoticeUnit} (ho : n.offer now = some (f, m)) : m.Lawful := by
  by_cases hdue : ∃ e ∈ n.queue, e.IsDue
  · obtain ⟨front, e, back, hq, ⟨num, he⟩, hfront⟩ := exists_first hdue
    rw [NoticeUnit.offer, hq, takeDue_first he hfront] at ho
    cases ho
    exact h.resends hq he _
  · have hnone : ∀ e ∈ n.queue, ¬ e.IsDue := by simpa using hdue
    obtain ⟨sent, waiting, hq, law⟩ := h.queue
    rw [NoticeUnit.offer_of_none_due hnone] at ho
    split at ho
    · next hroom =>
      cases waiting with
      | nil =>
        rw [hq, List.append_nil, takeUnsent_eq_none law.state_ne] at ho
        cases ho
      | cons e waiting =>
        rw [hq, law.sentCount_eq] at hroom
        have taken := takeUnsent_first (law.unsent e List.mem_cons_self) law.state_ne n.nextNum waiting
        rw [← hq] at taken
        rw [taken] at ho
        cases ho
        exact h.sends hq law hnone hroom _
    · cases ho

/-- The retransmit timer stops, and every SENT entry is due (R148). -/
theorem expires (h : n.Lawful) : NoticeUnit.Lawful { n with timer := none, queue := n.queue.map Notice.markDue } := by
  have marked : ∀ e : Notice, e.markDue.outline = e.outline ∧ e.markDue.count = e.count ∧
      (e.markDue.isSent = true → e.markDue.resendIsDue = true) := by
    intro e
    unfold Notice.markDue
    split
    · next hs => exact ⟨Notice.outline_eq rfl rfl (by simp [Notice.number?, hs]), rfl, fun _ => rfl⟩
    · next hs => exact ⟨rfl, rfl, fun hsent => absurd hs ((Notice.isSent_iff e).1 hsent)⟩
  have outlines : (n.queue.map Notice.markDue).map Notice.outline = n.queue.map Notice.outline := by
    rw [List.map_map]
    exact List.map_congr_left fun e _ => (marked e).1
  refine h.of_outlines outlines rfl rfl (List.forall_mem_map.2 fun e he => ?_) (fun _ => rfl)
    (fun _ => List.forall_mem_map.2 fun e _ => (marked e).2.2)
  rw [(marked e).2.1]
  exact h.counts e he

/-! #### Acknowledgments -/

/-- An OVERFLOW entry is made of the tally if one was removed (R150). -/
theorem renewed {removed : List Notice} (cleared : NoticeUnit.Lawful { n with tally := 0 }) (hle : n.tally ≤ 255)
    (hgone : (∃ e ∈ removed, e.kind = .overflow) → ∀ e ∈ n.queue, e.kind ≠ .overflow)
    (hkept : (∀ e ∈ removed, e.kind ≠ .overflow) → n.tally ≠ 0 → ∃ e ∈ n.queue, e.isOverflow = true ∧ e.isSent = true) :
    (n.renewOverflow removed).Lawful := by
  unfold NoticeUnit.renewOverflow
  split
  · next hrenew =>
    simp only [Bool.and_eq_true, List.any_eq_true, bne_iff_ne, Notice.isOverflow_iff] at hrenew
    obtain ⟨hover, ht⟩ := hrenew
    exact cleared.joined_overflow (hgone hover) ⟨Nat.one_le_iff_ne_zero.2 ht, hle⟩ _
  · next hkeep =>
    refine ⟨cleared.queue, cleared.counts, hle, fun ht => hkept (fun e he hover => hkeep ?_) ht, cleared.stopped, cleared.due⟩
    simpa using ⟨⟨e, he, hover⟩, ht⟩

/-- The acknowledged entries go (R149, R150). -/
theorem acked {gone sent waiting : List Notice} (h : n.Lawful) (hq : n.queue = gone ++ (sent ++ waiting))
    (law : QueueLaw n.nextNum (gone ++ sent) waiting) (expiry : Nat) :
    (NoticeUnit.renewOverflow gone { n with
      queue := sent ++ waiting
      timer := if sentCount (sent ++ waiting) = 0 then none else some expiry }).Lawful := by
  refine renewed ⟨⟨sent, waiting, rfl, law.behind⟩, fun e he => h.counts e (hq ▸ List.mem_append_right gone he), Nat.zero_le _,
    fun ht => absurd rfl ht, fun hz => if_pos hz, fun ht e he hs => ?_⟩ h.tally_le ?_ fun hnone ht => ?_
  · have nothingSent : sentCount (sent ++ waiting) = 0 := by
      by_contra hz
      exact absurd ((if_neg hz).symm.trans ht) (Option.some_ne_none expiry)
    exact absurd ((sentCount_eq_zero _).1 nothingSent e he) ((Notice.isSent_iff e).1 hs)
  · rintro ⟨e, he, hover⟩ x hx
    obtain ⟨a, b, rfl⟩ := List.append_of_mem he
    obtain ⟨-, hback⟩ := h.overflow_alone (back := b ++ (sent ++ waiting)) (by simpa using hq) hover
    exact hback x (List.mem_append_right b hx)
  · obtain ⟨x, hx, hover, hs⟩ := h.tallied ht
    rw [hq] at hx
    exact ⟨x, (List.mem_append.1 hx).resolve_left fun hg => hnone x hg ((Notice.isOverflow_iff x).1 hover), hover, hs⟩

/-- An ACK is taken (R149, R150). -/
theorem ack (h : n.Lawful) (now : Nat) (num : Byte) : (n.ack now num).Lawful := by
  by_cases hnum : ∃ e ∈ n.queue, e.hasNumber num = true
  · obtain ⟨sent, waiting, hq, law⟩ := h.queue
    have hsent : ∃ e ∈ sent, e.hasNumber num = true := by
      obtain ⟨e, he, hn⟩ := hnum
      obtain ⟨due, hs⟩ := (Notice.hasNumber_iff num e).1 hn
      exact ⟨e, law.mem_sent (hq ▸ he) (by simp [hs]), hn⟩
    obtain ⟨front, e, back, rfl, he, hfront⟩ := exists_first hsent
    have first := NoticeUnit.ack_first (back := back ++ waiting) (by simpa using hq) he
      (fun x hx => ⟨hfront x hx, law.state_ne x (by simp [hx])⟩) now
    rw [first]
    exact h.acked (by simpa using hq) (by simpa using law) _
  · rw [NoticeUnit.ack_unknown (by simpa using hnum)]
    exact h

end NoticeUnit.Lawful

end Sys2Proof.Machine
end

section
/-! PROOFS. Everything that a step can make of the Notice Unit and of the notices on their way to it (chapter 8), as a path of the few
things that happen to them; and that the law of the notice queue (R152) is kept along such a path. -/

namespace Sys2Proof.Machine

/-! ### What happens to the Notice Unit -/

/-- Notices that blocks raise: no block raises an OVERFLOW (R140). -/
def Ordinary (rs : List Raised) : Prop := ∀ r ∈ rs, r.kind ≠ .overflow

theorem Ordinary.nil : Ordinary [] := nofun

theorem Ordinary.one {r : Raised} (h : r.kind ≠ .overflow) : Ordinary [r] := by simpa [Ordinary] using h

theorem Ordinary.append {rs rs' : List Raised} (h : Ordinary rs) (h' : Ordinary rs') : Ordinary (rs ++ rs') :=
  List.forall_mem_append.2 ⟨h, h'⟩

/-- The Notice Unit, and the notices on their way to it. -/
abbrev State.noticeView (s : State) : NoticeUnit × List Raised := (s.notices, s.raising)

/-- One thing that happens to the Notice Unit and to the notices on their way to it. -/
inductive NoticeAct : NoticeUnit × List Raised → NoticeUnit × List Raised → Prop
  /-- A block raises a notice, and it is taken at once (R141, R142). -/
  | takes {n rs r} (hr : r.kind ≠ .overflow) : NoticeAct (n, rs) (NoticeUnit.take r n, rs)
  /-- Blocks raise notices, and they wait to be taken. -/
  | holds {n rs new} (hnew : Ordinary new) : NoticeAct (n, rs) (n, rs ++ new)
  /-- A notice that waits is taken (R141, R142). -/
  | takesHeld {n rs r} (hr : r ∈ rs) : NoticeAct (n, rs) (NoticeUnit.take r n, rs.erase r)
  /-- The transmitter takes what is offered (R144). -/
  | sends {n rs now f m} (ho : NoticeUnit.offer now n = some (f, m)) : NoticeAct (n, rs) (m, rs)
  /-- An ACK is taken (R149, R150). -/
  | acks {n rs} (now : Nat) (num : Byte) : NoticeAct (n, rs) (n.ack now num, rs)
  /-- The retransmit timer expires (R148). -/
  | expires {n rs} : NoticeAct (n, rs) ({ n with timer := none, queue := n.queue.map Notice.markDue }, rs)
  /-- A reset empties the Notice Unit (R155). -/
  | empties {n rs} : NoticeAct (n, rs) (NoticeUnit.emptied, [])

/-- Each of them keeps the law. -/
theorem NoticeAct.keeps {x y : NoticeUnit × List Raised} (h : NoticeAct x y) (hx : x.1.Lawful ∧ Ordinary x.2) :
    y.1.Lawful ∧ Ordinary y.2 := by
  obtain ⟨law, held⟩ := hx
  cases h with
  | takes hr => exact ⟨law.take hr, held⟩
  | holds hnew => exact ⟨law, held.append hnew⟩
  | takesHeld hr => exact ⟨law.take (held _ hr), fun r h => held r (List.mem_of_mem_erase h)⟩
  | sends ho => exact ⟨law.offer ho, held⟩
  | acks now num => exact ⟨law.ack now num, held⟩
  | expires => exact ⟨law.expires, held⟩
  | empties => exact ⟨lawful_emptied, .nil⟩

/-- What becomes of the Notice Unit and of the notices on their way to it, one thing after another. -/
def NoticeActs (s t : State) : Prop := Relation.ReflTransGen NoticeAct s.noticeView t.noticeView

/-- A change beside the Notice Unit. -/
theorem NoticeActs.beside {s t : State} (h : t.noticeView = s.noticeView) : NoticeActs s t := by
  unfold NoticeActs
  rw [h]

theorem NoticeActs.refl (s : State) : NoticeActs s s := .beside rfl

theorem NoticeActs.single {s t : State} (h : NoticeAct s.noticeView t.noticeView) : NoticeActs s t := Relation.ReflTransGen.single h

theorem NoticeActs.trans {s t u : State} (h : NoticeActs s t) (g : NoticeActs t u) : NoticeActs s u :=
  Relation.ReflTransGen.trans h g

/-- The notice law is kept along the path. -/
theorem NoticeActs.keeps {s t : State} (h : NoticeActs s t) (law : NoticeLaw s) : NoticeLaw t := by
  rw [noticeLaw_iff] at law ⊢
  refine Relation.ReflTransGen.head_induction_on
    (motive := fun x _ => x.1.Lawful ∧ Ordinary x.2 → t.notices.Lawful ∧ Ordinary t.raising) h id ?_ law
  exact fun a _ ih hx => ih (a.keeps hx)

/-! ### The transmitter -/

theorem noticeActs_choose (n : Nat) (s : State) : NoticeActs s (choose n s).2 := by
  obtain ⟨k, hk⟩ := choose_state n s
  rw [hk]
  exact .beside rfl

/-- A notice raised from a state that differs beside the Notice Unit. -/
theorem noticeActs_raise {r : Raised} (hr : r.kind ≠ .overflow) {s u : State} (hu : u.noticeView = s.noticeView) :
    NoticeActs s (raise r u) := (NoticeActs.beside hu).trans (.single (.takes hr))

theorem noticeActs_sendNotice (s : State) : NoticeActs s (sendNotice s) := by
  obtain ⟨-, h⟩ | ⟨f, n, ho, h⟩ := sendNotice_cases s <;> rw [h]
  · exact .refl s
  · exact .single (.sends ho)

theorem noticeActs_arbitrate (s : State) : NoticeActs s (arbitrate s) := by
  unfold arbitrate
  split
  · exact .refl s
  · split
    · exact .beside rfl
    · exact noticeActs_sendNotice s

theorem noticeActs_arbitrateAfter (b : Bool) (s : State) : NoticeActs s (arbitrateAfter b s) := by
  unfold arbitrateAfter
  split
  · dsimp only
    split
    · exact (noticeActs_choose 2 s).trans (noticeActs_sendNotice _)
    · exact (noticeActs_choose 2 s).trans (noticeActs_arbitrate _)
  · exact noticeActs_arbitrate s

theorem noticeActs_maybeSendNotice (s : State) : NoticeActs s (maybeSendNotice s) := by
  obtain h | ⟨k, h⟩ | ⟨k, h⟩ := maybeSendNotice_cases s <;> rw [h]
  · exact .refl s
  · exact .trans (.beside rfl) (noticeActs_sendNotice { s with choices := k })
  · exact .beside rfl

theorem noticeActs_maybeSendBefore (s : State) : NoticeActs s (maybeSendBefore s) := by
  unfold maybeSendBefore
  split
  · exact noticeActs_maybeSendNotice s
  · exact .refl s

theorem noticeActs_takeRaisedUpTo (k : Nat) (s : State) : NoticeActs s (takeRaisedUpTo k s) := by
  induction k generalizing s with
  | zero => exact .refl s
  | succ k ih =>
    by_cases h : s.raising = []
    · simpa [takeRaisedUpTo, h, firstOfEachSource] using noticeActs_choose 0 s
    · obtain ⟨r, hr, c, e⟩ := takeRaisedUpTo_succ k s h
      have raised : NoticeActs s (raise r { s with choices := c, raising := s.raising.erase r }) :=
        .single (.takesHeld (mem_of_mem_firstOfEachSource hr))
      rw [e]
      refine raised.trans (.trans ?_ (ih _))
      dsimp only
      split
      · exact .refl _
      · exact noticeActs_maybeSendNotice _

theorem noticeActs_takeRaised (s : State) : NoticeActs s (takeRaised s) := noticeActs_takeRaisedUpTo _ s

/-- Notices raised from a state that differs beside the Notice Unit. -/
theorem noticeActs_raiseAll {rs : List Raised} (hrs : Ordinary rs) {s u : State} (hu : u.noticeView = s.noticeView) :
    NoticeActs s (raiseAll rs u) := by
  have held : NoticeActs u { u with raising := u.raising ++ rs } := .single (.holds hrs)
  exact (NoticeActs.beside hu).trans (held.trans (noticeActs_takeRaised _))

theorem noticeActs_settleFirings (s : State) : NoticeActs s (settleFirings s) := by
  unfold settleFirings
  split
  · exact .refl s
  · exact (noticeActs_takeRaised s).trans (noticeActs_arbitrate _)

/-! ### The receiver -/

theorem noticeActs_linkError (s : State) : NoticeActs s (linkError s) := by
  unfold linkError
  dsimp only
  split
  · split
    · exact noticeActs_choose 2 s
    · exact (noticeActs_choose 2 s).trans (.beside rfl)
  · exact .beside rfl

theorem noticeActs_abandon (s : State) : NoticeActs s (abandon s) := .trans (.beside rfl) (noticeActs_linkError (setRx .hunt s))

theorem noticeActs_takeAck (body : List Byte) (s : State) : NoticeActs s (takeAck body s) := by
  unfold takeAck
  split
  · next num => exact .single (.acks s.now num)
  · exact .refl s

/-! ### The notices of swaps, walks, cycles and causes -/

theorem ordinary_swapRaised (s : State) : Ordinary (swapRaised s) := by
  unfold swapRaised
  split
  · exact .one (by simp [swapNotice])
  · exact .nil

theorem ordinary_endWalk (s : State) : Ordinary (endWalk s).2 := by
  rw [endWalk_raised]
  split
  · exact .one (by simp)
  · exact .nil

theorem noticeActs_handOn (s : State) : NoticeActs s (handOn s) := by
  rw [handOn_eq]
  exact noticeActs_raiseAll ((ordinary_swapRaised s).append (ordinary_endWalk s)) rfl

theorem ordinary_stopped {cut : List Raised} (hcut : Ordinary cut) (now : Bool) (s : State) :
    Ordinary (swapRaised s ++ stoppedNotice now s :: cut) :=
  (ordinary_swapRaised s).append ((Ordinary.one (r := stoppedNotice now s) (by simp [stoppedNotice])).append hcut)

theorem noticeActs_enterStopped {cut : List Raised} (hcut : Ordinary cut) (now : Bool) (s : State) :
    NoticeActs s (enterStopped now cut s) := by
  rw [enterStopped_eq]
  exact noticeActs_raiseAll (ordinary_stopped hcut now s) rfl

theorem noticeActs_stopEngine (now : Bool) (s : State) : NoticeActs s (stopEngine now s) := by
  unfold stopEngine
  split
  · exact .refl s
  · exact noticeActs_enterStopped .nil now s
  · split
    · exact noticeActs_enterStopped .nil true s
    · exact .beside rfl

/-- A boundary raises its notices, the one of its source first (R37, R39). -/
theorem noticeActs_boundary (flywheel : Bool) {source : Option NoticeKind} (hsource : source ≠ some .overflow) (s : State) :
    NoticeActs s (boundary flywheel source s) := by
  unfold boundary
  split
  · rw [stopAtBoundary_eq]
    exact noticeActs_raiseAll (ordinary_stopped (ordinary_endWalk s) false s) rfl
  · have sourced : NoticeActs (takeRaised s) (((takeRaised s).entersCycle flywheel).raisedBy source) := by
      cases source with
      | none => exact .beside rfl
      | some kind => exact noticeActs_raise (fun hk => hsource (congrArg some hk)) rfl
    rw [newCycle_eq]
    exact ((noticeActs_takeRaised s).trans sourced).trans (noticeActs_handOn _)

theorem noticeActs_risingEdge (s : State) : NoticeActs s (risingEdge s) := by
  unfold risingEdge
  split
  · exact .trans (.beside rfl) (noticeActs_handOn { s with engine := Engine.startCycle s.now s.engine })
  · split <;> exact noticeActs_boundary _ (by decide) s
  · exact .refl s

theorem noticeActs_applyCause (c : Cause) (s : State) : NoticeActs s (applyCause c s) := by
  unfold applyCause
  split
  · exact .beside rfl
  · exact noticeActs_raise (by simp) rfl

theorem noticeActs_announceReset (cause : Byte) (s : State) : NoticeActs s (announceReset cause s) := by
  have ready := noticeActs_raise (r := { kind := .ready, subject := some cause, detail := 0, cycle := 0 }) (s := s) (by simp) rfl
  unfold announceReset
  dsimp only
  split
  · exact ready.trans (noticeActs_applyCause _ _)
  · exact ready

/-- A reset empties the Notice Unit and then announces itself (R154, R155). -/
theorem noticeActs_reset (cause : Byte) (s : State) {u : State} (hu : u.noticeView = (NoticeUnit.emptied, [])) :
    NoticeActs s (announceReset cause u) := by
  refine .trans (.single ?_) (noticeActs_announceReset cause u)
  rw [hu]
  exact .empties

/-! ### Requests -/

/-- A way of carrying out a request by what can happen to the Notice Unit. -/
def Carry.NoticeActs (carry : Carry) : Prop := ∀ (body : List Byte) (s : State), Machine.NoticeActs s (carry body s).1

/-- A request that leaves the Notice Unit alone. -/
def Carry.Quiet (carry : Carry) : Prop := ∀ (body : List Byte) (s : State), (carry body s).1.noticeView = s.noticeView

theorem Carry.Quiet.noticeActs {carry : Carry} (h : carry.Quiet) : carry.NoticeActs := fun body s => .beside (h body s)

theorem withLength_noticeActs {n : Nat} {body : List Byte} {s : State} {k : State × List Byte} (hk : NoticeActs s k.1) :
    NoticeActs s (withLength n body s k).1 := by
  unfold withLength
  split
  · exact hk
  · exact .refl s

theorem withLength_quiet {n : Nat} {body : List Byte} {s : State} {k : State × List Byte}
    (hk : k.1.noticeView = s.noticeView) : (withLength n body s k).1.noticeView = s.noticeView := by
  unfold withLength
  split
  · exact hk
  · rfl

theorem carryIdentify_quiet : carryIdentify.Quiet := fun _ _ => withLength_quiet rfl

theorem carryStatus_quiet : carryStatus.Quiet := fun body s => withLength_quiet <| by
  cases flagAt body 0 with
  | none => rfl
  | some clear => cases clear <;> rfl

theorem carryReset_quiet : carryReset.Quiet := fun _ _ => withLength_quiet rfl

theorem carryCycleSet_quiet : carryCycleSet.Quiet := fun body s => withLength_quiet <| by
  cases modeOf (natAt body 4) with
  | none => rfl
  | some mode =>
    dsimp only
    split
    · rfl
    · split
      · rfl
      · split <;> rfl

theorem carryStart_quiet : carryStart.Quiet := fun body s => withLength_quiet <| by
  split
  · rfl
  · dsimp only
    split <;> rfl

theorem carryStop_noticeActs : carryStop.NoticeActs := fun body s => withLength_noticeActs <| by
  cases flagAt body 0 with
  | none => exact .refl s
  | some now => exact noticeActs_stopEngine now s

theorem editStandby_quiet (edit : PlanTable → PlanTable) (s : State) :
    (editStandby edit s).1.noticeView = s.noticeView := by
  unfold editStandby
  dsimp only
  split <;> rfl

theorem carryStepPut_quiet : carryStepPut.Quiet := fun body s => withLength_quiet <| by
  cases parseStep body with
  | none => rfl
  | some x => exact editStandby_quiet _ s

theorem carryStepDrop_quiet : carryStepDrop.Quiet := fun body s => withLength_quiet <| by
  cases slotAt body 0 with
  | none => rfl
  | some p => exact editStandby_quiet _ s

theorem carryPlanHead_quiet : carryPlanHead.Quiet := fun body s => withLength_quiet <| by
  cases slotOrNoneAt body 0 with
  | none => rfl
  | some p => exact editStandby_quiet _ s

theorem carryPlanClear_quiet : carryPlanClear.Quiet := fun _ s => withLength_quiet (editStandby_quiet _ s)

theorem carryPlanCopy_quiet : carryPlanCopy.Quiet := fun _ s => withLength_quiet (editStandby_quiet _ s)

theorem carryPlanRead_quiet : carryPlanRead.Quiet := fun body s => withLength_quiet <| by
  split <;> rfl

/-- PLAN_COMMIT raises PLAN_SWAPPED where it swaps at once (R16). -/
theorem carryPlanCommit_noticeActs : carryPlanCommit.NoticeActs := fun body s => withLength_noticeActs <| by
  split
  · exact .refl s
  · split
    · exact .refl s
    · dsimp only
      split
      · exact noticeActs_raiseAll (.one (by simp [swapNotice])) rfl
      · exact .beside rfl

theorem carryCommitCancel_quiet : carryCommitCancel.Quiet := fun body s => withLength_quiet <| by
  split <;> rfl

theorem carryChanSet_quiet : carryChanSet.Quiet := fun body s => withLength_quiet <| by
  split
  · split
    · rfl
    · split
      · rfl
      · dsimp only
        split <;> rfl
  · rfl

theorem carryChanRelease_quiet : carryChanRelease.Quiet := fun body s => withLength_quiet <| by
  cases chanAt body 0 with
  | none => rfl
  | some ch =>
    dsimp only
    split
    · rfl
    · split <;> rfl

theorem carryChanRead_quiet : carryChanRead.Quiet := fun body s => withLength_quiet <| by
  split
  · next clear _ _ => cases clear <;> rfl
  · rfl

theorem carryChanEdge_quiet : carryChanEdge.Quiet := fun body s => withLength_quiet <| by
  split
  · split <;> rfl
  · rfl

theorem putLevels_quiet (ch : ChanIx) (c : LevelChan) (body : List Byte) (s : State) :
    (putLevels ch c body s).1.noticeView = s.noticeView := by
  unfold putLevels
  dsimp only
  split <;> rfl

theorem putBursts_quiet (ch : ChanIx) (c : BurstChan) (body : List Byte) (s : State) :
    (putBursts ch c body s).1.noticeView = s.noticeView := by
  unfold putBursts
  dsimp only
  split
  · rfl
  · split <;> rfl

theorem carryQueuePut_quiet : carryQueuePut.Quiet := fun body s => by
  unfold carryQueuePut
  split
  · rfl
  · cases chanAt body 0 with
    | none => rfl
    | some ch =>
      dsimp only
      split
      · rfl
      · rfl
      · rfl
      · exact putLevels_quiet ch _ body s
      · exact putBursts_quiet ch _ body s

theorem carryQueueTake_quiet : carryQueueTake.Quiet := fun body s => withLength_quiet <| by
  cases chanAt body 0 with
  | none => rfl
  | some ch =>
    dsimp only
    split
    · rfl
    · split <;> rfl

theorem carryQueueFlush_quiet : carryQueueFlush.Quiet := fun body s => withLength_quiet <| by
  cases chanAt body 0 with
  | none => rfl
  | some ch =>
    dsimp only
    split <;> rfl

theorem carrySafe_noticeActs : carrySafe.NoticeActs := fun _ s => withLength_noticeActs (noticeActs_applyCause .request s)

theorem carryResume_quiet : carryResume.Quiet := fun _ s => withLength_quiet <| by
  split <;> rfl

theorem carrySilenceSet_quiet : carrySilenceSet.Quiet := fun _ s => withLength_quiet <| by
  dsimp only
  split <;> rfl

/-- Every request of section 10.6; STOP, PLAN_COMMIT and SAFE alone raise notices. -/
theorem carryOf_noticeActs (kind : Byte) : (carryOf kind).NoticeActs := by
  have table : ∀ x ∈ requestTable, Carry.NoticeActs x.2 := by
    simp only [requestTable, List.forall_mem_cons, List.not_mem_nil, false_implies, implies_true, and_true]
    exact ⟨carryIdentify_quiet.noticeActs, carryStatus_quiet.noticeActs, carryReset_quiet.noticeActs, carryCycleSet_quiet.noticeActs,
      carryStart_quiet.noticeActs, carryStop_noticeActs, carryStepPut_quiet.noticeActs, carryStepDrop_quiet.noticeActs,
      carryPlanHead_quiet.noticeActs, carryPlanClear_quiet.noticeActs, carryPlanCopy_quiet.noticeActs,
      carryPlanRead_quiet.noticeActs, carryPlanCommit_noticeActs, carryCommitCancel_quiet.noticeActs,
      carryChanSet_quiet.noticeActs, carryChanRelease_quiet.noticeActs, carryChanRead_quiet.noticeActs,
      carryChanEdge_quiet.noticeActs, carryQueuePut_quiet.noticeActs, carryQueueTake_quiet.noticeActs,
      carryQueueFlush_quiet.noticeActs, carrySafe_noticeActs, carryResume_quiet.noticeActs, carrySilenceSet_quiet.noticeActs⟩
  unfold carryOf
  cases hl : requestTable.lookup kind with
  | none => exact fun _ s => .refl s
  | some carry =>
    obtain ⟨l₁, l₂, hx, -⟩ := List.lookup_eq_some_iff.1 hl
    exact table (kind, carry) (by simp [hx])

theorem serve_noticeActs (f : Frame) (kind : Byte) (s : State) : NoticeActs s (serve f (carryOf kind) s) := by
  have carried : NoticeActs s (carryOf kind f.body s.taken).1 := .trans (.beside rfl) (carryOf_noticeActs kind f.body s.taken)
  unfold serve
  dsimp only
  split
  · split
    · exact .beside rfl
    · exact carried
  · exact carried

theorem dispatch_noticeActs (f : Frame) (kind : Byte) (s : State) : NoticeActs s (dispatch f (carryOf kind) s) := by
  unfold dispatch
  split
  · exact (serve_noticeActs f kind s).trans (noticeActs_arbitrateAfter _ _)
  · exact .refl s

theorem serveHeld_noticeActs (s : State) : NoticeActs s (serveHeld s) := by
  unfold serveHeld
  split
  · exact serve_noticeActs _ _ s
  · exact .refl s

/-! ### Characters -/

theorem offerRequest_noticeActs (f : Frame) (s : State) : NoticeActs s (offerRequest f s) := by
  have held : NoticeActs s { s with link := { s.link with holding := some f } } := .beside rfl
  unfold offerRequest
  split
  · exact noticeActs_linkError s
  · dsimp only
    split
    · exact held.trans ((serveHeld_noticeActs _).trans (noticeActs_arbitrateAfter _ _))
    · exact held

theorem judgeFrame_noticeActs (f : Frame) (received : Nat) (s : State) : NoticeActs s (judgeFrame f received s) := by
  have hunting : NoticeActs s (setRx .hunt s) := .beside rfl
  have restarted : NoticeActs s (restartSilence (setRx .hunt s)) := .beside rfl
  unfold judgeFrame
  dsimp only
  split
  · exact hunting.trans (noticeActs_linkError _)
  · split
    · exact hunting.trans (noticeActs_linkError _)
    · split
      · exact restarted.trans ((noticeActs_takeAck _ _).trans (noticeActs_arbitrate _))
      · exact restarted.trans (offerRequest_noticeActs f _)

theorem receiveByte_noticeActs (b : Byte) (s : State) : NoticeActs s (receiveByte b s) := by
  have moved : NoticeActs s (setRx (s.link.rx.take s.now b).1 s) := .beside rfl
  unfold receiveByte
  dsimp only
  split
  · exact moved
  · exact moved.trans (noticeActs_linkError _)
  · exact moved.trans (judgeFrame_noticeActs _ _ _)

theorem receiveFaulty_noticeActs (s : State) : NoticeActs s (receiveFaulty s) := by
  have waits : NoticeActs s { s with link := { s.link with front := .awaitingHigh } } := .beside rfl
  unfold receiveFaulty
  dsimp only
  split
  · exact waits
  · exact waits.trans (noticeActs_abandon _)

theorem onCharacter_noticeActs {f : State → State} (hf : ∀ u, NoticeActs u (f u)) (s : State) :
    Answers (NoticeActs s) (onCharacter f s) := by
  have seeking : NoticeActs s { s with link := { s.link with front := .seeking } } := .beside rfl
  refine answers_whenPowered (.refl s) fun _ => ?_
  split
  · exact seeking
  · exact seeking.trans (hf _)
  · exact seeking.trans (hf _)

/-! ### The walker and the channels -/

theorem ordinary_channelNotice {kind : NoticeKind} (h : kind ≠ .overflow) (ch : ChanIx) (detail : Nat) (cycle : CycleNo) :
    Ordinary [channelNotice kind ch detail cycle] := .one h

theorem ordinary_judgeLowWater (ch : ChanIx) (mark fill : Nat) (cycle : CycleNo) : Ordinary (judgeLowWater ch mark fill cycle) := by
  unfold judgeLowWater
  split
  · exact ordinary_channelNotice (by decide) _ _ _
  · exact .nil

theorem ordinary_judgeStarved (ch : ChanIx) (slot : SlotIx) (state : OutputState) (cycle : CycleNo) :
    Ordinary (judgeStarved ch slot state cycle) := by
  unfold judgeStarved
  split
  · exact .nil
  · exact ordinary_channelNotice (by decide) _ _ _

theorem LevelChan.ordinary_emit (ch : ChanIx) (slot : SlotIx) (cycle : CycleNo) (c : LevelChan) :
    Ordinary (c.emit ch slot cycle).2 := by
  unfold LevelChan.emit
  split
  · exact ordinary_judgeLowWater _ _ _ _
  · exact ordinary_judgeStarved _ _ _ _

theorem BurstChan.ordinary_emit (now : Nat) (ch : ChanIx) (slot : SlotIx) (cycle : CycleNo) (c : BurstChan) :
    Ordinary (c.emit now ch slot cycle).2 := by
  unfold BurstChan.emit
  split
  · exact ordinary_channelNotice (by decide) _ _ _
  · exact ordinary_judgeLowWater _ _ _ _
  · exact ordinary_judgeStarved _ _ _ _

theorem ordinary_appendNotice (ch : ChanIx) (mark fill lost : Nat) (wasLost : Bool) (cycle : CycleNo) :
    Ordinary (appendNotice ch mark fill lost wasLost cycle) := by
  unfold appendNotice
  split
  · exact ordinary_channelNotice (by decide) _ _ _
  · split
    · exact ordinary_channelNotice (by decide) _ _ _
    · exact .nil

theorem EdgeChan.ordinary_confirmLine (ch : ChanIx) (now : Nat) (value : LineValue) (c : EdgeChan) (i : Fin 8) :
    Ordinary (c.confirmLine ch now value i).2 := by
  unfold EdgeChan.confirmLine
  split
  · split
    · unfold EdgeChan.confirm
      dsimp only
      split
      · exact ordinary_appendNotice _ _ _ _ _ _
      · exact .nil
    · exact .nil
  · exact .nil

theorem EdgeChan.ordinary_confirmDue (ch : ChanIx) (now : Nat) (value : LineValue) (c : EdgeChan) :
    Ordinary (c.confirmDue ch now value).2 :=
  List.foldlRecOn (motive := fun p : EdgeChan × List Raised => Ordinary p.2) c.lines _ .nil
    fun p hp i _ => hp.append (p.1.ordinary_confirmLine ch now value i)

/-- The reply to a QUEUE_PUT of the instant is not the Notice Unit's. -/
theorem reportFill_quiet (ch : ChanIx) (fill : Nat) (s : State) :
    (reportFill ch fill s).noticeView = s.noticeView := by
  unfold reportFill
  split <;> rfl

/-- The hand-off of a step leaves the Notice Unit alone, and its notices are still to be raised (R53 to R56). -/
theorem handOff_quiet {slot : SlotIx} {st : Step} {cycle : CycleNo} {s t : State} {rs : List Raised}
    (h : handOff slot st cycle s = some (t, rs)) : t.noticeView = s.noticeView ∧ Ordinary rs := by
  unfold handOff at h
  split at h
  · next ch _ =>
    unfold handEmit at h
    split at h
    · next c _ =>
      split at h
      · cases h
        exact ⟨rfl, .nil⟩
      · cases h
        exact ⟨reportFill_quiet ch _ _, c.ordinary_emit ch slot cycle⟩
    · next c _ =>
      split at h
      · cases h
        exact ⟨rfl, .nil⟩
      · cases h
        exact ⟨reportFill_quiet ch _ _, c.ordinary_emit s.now ch slot cycle⟩
    · cases h
  · unfold handSample at h
    split at h
    · cases h
      exact ⟨rfl, ordinary_appendNotice _ _ _ _ _ _⟩
    · cases h
  · unfold handOpen at h
    split at h
    · cases h
      exact ⟨rfl, .nil⟩
    · cases h
  · unfold handClose at h
    split at h
    · cases h
      exact ⟨rfl, .nil⟩
    · cases h
  · cases h
    exact ⟨rfl, .one (by simp)⟩

theorem stepFire_noticeActs (s : State) : Answers (NoticeActs s) (execStepFire s) := by
  unfold execStepFire
  split
  · exact answers_next (.refl s)
  · split
    · exact answers_next (.refl s)
    · exact fun t ht => nomatch ht
    · next st _ _ =>
      split
      · unfold fireStep
        split
        · exact fun t ht => nomatch ht
        · next t rs ho =>
          obtain ⟨hview, hrs⟩ := handOff_quiet ho
          have held : NoticeActs t { t with walk := t.walk.passed st, raising := t.raising ++ rs } := .single (.holds hrs)
          exact answers_next ((NoticeActs.beside hview).trans (held.trans (noticeActs_settleFirings _)))
      · exact answers_next (.refl s)

theorem confirmChannel_noticeActs (ch : ChanIx) (s : State) : NoticeActs s (confirmChannel ch s) := by
  unfold confirmChannel
  split
  · next c _ => exact noticeActs_raiseAll (c.ordinary_confirmDue ch _ _) rfl
  · exact .refl s

/-! ### Replies and resets -/

theorem replySent_noticeActs (s : State) : Answers (NoticeActs s) (execReplySent s) := by
  have freed : NoticeActs s (emptySlot (freeTransmitter s)) := .beside rfl
  refine answers_ite (fun _ => ?_) (.refl s)
  dsimp only
  split
  · have restarted : NoticeActs s (softReset (emptySlot (freeTransmitter s))) := noticeActs_reset 2 s rfl
    exact restarted.trans ((serveHeld_noticeActs _).trans (noticeActs_arbitrate _))
  · exact freed.trans ((noticeActs_maybeSendBefore _).trans ((serveHeld_noticeActs _).trans (noticeActs_arbitrateAfter _ _)))

theorem hardwareResetEnd_noticeActs (samples : FirstSamples) (midCharacter : Bool) (s : State) :
    Answers (NoticeActs s) (execHardwareResetEnd samples midCharacter s) := by
  unfold execHardwareResetEnd
  refine answers_next ?_
  split
  · exact .refl s
  · exact noticeActs_reset _ s rfl

/-! ### All commands, and all steps -/

/-- What a command makes of the Notice Unit. -/
theorem exec_noticeActs (c : Instr) (s : State) : Answers (NoticeActs s) (exec c s) := by
  have asked : ∀ {u : State}, NoticeActs s u → NoticeActs s (arbitrate u) := fun h => h.trans (noticeActs_arbitrate _)
  cases hf : requestFrame? c with
  | some f =>
    rw [exec_request hf]
    exact answers_next (dispatch_noticeActs f f.kind s)
  | none =>
    cases c
    case unknownKind seq kind body =>
      have hk : ¬ unknownKindCode kind = true := by simpa [requestFrame?] using hf
      show Answers (NoticeActs s) (execUnknownKind seq kind body s)
      rw [execUnknownKind, if_neg hk]
      exact answers_next (.refl s)
    case requestFrameReceived b => exact onCharacter_noticeActs (receiveByte_noticeActs b) s
    case ack b => exact onCharacter_noticeActs (receiveByte_noticeActs b) s
    case frameDiscarded b => exact onCharacter_noticeActs (receiveByte_noticeActs b) s
    case lengthByteAbove240 b => exact onCharacter_noticeActs (receiveByte_noticeActs b) s
    case byteTaken b => exact onCharacter_noticeActs (receiveByte_noticeActs b) s
    case framingError => exact onCharacter_noticeActs receiveFaulty_noticeActs s
    case gapLimit => exact answers_ite (fun _ => noticeActs_abandon s) (.refl s)
    case replySent => exact replySent_noticeActs s
    case noticeFrameSent => exact answers_ite (fun _ => asked (.beside rfl)) (.refl s)
    case hardwareResetBegin cause => exact answers_next (.single .empties)
    case hardwareResetEnd samples midCharacter => exact hardwareResetEnd_noticeActs samples midCharacter s
    case periodBoundary => exact answers_ite (fun _ => asked (noticeActs_boundary _ (by decide) s)) (.refl s)
    case syncRisingEdge =>
      refine answers_whenPowered (.refl s) fun _ => ?_
      split
      · exact .refl s
      · exact asked (.trans (.beside rfl) (noticeActs_risingEdge { s with pins := { s.pins with sync := .high } }))
    case syncDeadline => exact answers_ite (fun _ => asked (noticeActs_boundary _ (by decide) s)) (.refl s)
    case flywheelBoundary => exact answers_ite (fun _ => asked (noticeActs_boundary _ (by decide) s)) (.refl s)
    case stepFire => exact stepFire_noticeActs s
    case burstOnPhaseEnd ch => exact answers_ite (fun _ => .beside rfl) (.refl s)
    case burstOffPhaseEnd ch => exact answers_ite (fun _ => .beside rfl) (.refl s)
    case edgeLineChange levels => exact answers_whenPowered (.beside rfl) fun _ => .beside rfl
    case debounceConfirmed ch => exact answers_ite (fun _ => asked (confirmChannel_noticeActs ch s)) (.refl s)
    case nstopLow =>
      refine answers_whenPowered (.refl s) fun _ => ?_
      dsimp only
      split
      · exact .beside rfl
      · exact asked (.trans (.beside rfl) (noticeActs_applyCause .stopLine { s with safe := { s.safe with nstop := .low } }))
    case nstopHigh => exact answers_whenPowered (.refl s) fun _ => .beside rfl
    case silenceTimerExpiry =>
      exact answers_ite (fun _ => asked (.trans (.beside rfl)
        (noticeActs_applyCause .silence { s with safe := { s.safe with timer := none } }))) (.refl s)
    case retransmitTimerExpiry => exact answers_ite (fun _ => asked (.single .expires)) (.refl s)
    case syncFallingEdge => exact answers_whenPowered (.refl s) fun _ => .beside rfl
    all_goals cases hf

theorem idle_noticeActs (s : State) : NoticeActs s (idle s) := by
  unfold idle
  split
  · exact .refl s
  · split
    · exact noticeActs_takeRaised s
    · split
      · exact noticeActs_arbitrate s
      · exact .beside rfl

/-- What a step makes of the Notice Unit. -/
theorem step_noticeActs (s : State) : Answers (NoticeActs s) (step s) := by
  intro t ht
  cases hp : s.pending with
  | cons c rest =>
    simp only [step, hp] at ht
    exact .trans (.beside rfl) (exec_noticeActs c { s with pending := rest } t ht)
  | nil =>
    by_cases hd : dueEvents s = []
    · rw [step_idle hp hd] at ht
      cases ht
      exact idle_noticeActs s
    · obtain ⟨c, k, -, hexec⟩ := step_due hp hd
      rw [hexec] at ht
      exact .trans (.beside rfl) (exec_noticeActs c { s with choices := k } t ht)

/-- Settles O57: all that a step can make of the Notice Unit keeps its law. -/
theorem noticeLawKept : Obligations.NoticeLawKept := fun s t h hstep => (step_noticeActs s t hstep).keeps h

end Sys2Proof.Machine
end

section
/-! PROOFS. The link law (R163, R165, R166, R170, R171, R179) is kept by every step: beside the link's own commands a step lets a free
transmitter begin a notice at most, and where a request's reply waits behind a free transmitter the arbiter is still to be asked. -/

namespace Sys2Proof.Machine

/-! ### The frame on TXD -/

/-- TXD is free or carries a notice. -/
def NoReplyOn (x : Option TxFrame) : Prop := ∀ f ∈ x, f.source = .notice

theorem noReplyOn_free : NoReplyOn none := nofun

theorem noReplyOn_some {f : TxFrame} : NoReplyOn (some f) ↔ f.source = .notice := by simp [NoReplyOn]

theorem slotOnLine_empty {x : Option TxFrame} : slotOnLine .empty x ↔ NoReplyOn x := by
  cases x with
  | none => exact iff_of_true trivial noReplyOn_free
  | some f => exact noReplyOn_some.symm

/-- With the transmitter free the law leaves the reply slot empty. -/
theorem slotOnLine_free {slot : ReplySlot} (h : slotOnLine slot none) : slot = .empty := by
  cases slot with
  | empty => rfl
  | waiting r => exact h.elim
  | inTransmission r => exact h.elim

/-- What the law says of a reply that waits does not depend on the reply. -/
theorem slotOnLine_waiting_any {r r' : Frame} {x : Option TxFrame} (h : slotOnLine (.waiting r) x) : slotOnLine (.waiting r') x := by
  cases x <;> exact h

/-- With a reply in the slot the law says no more than that the slot and TXD agree and the error count is in range. -/
theorem linkLaw_of_reply {s : State} (hslot : slotOnLine s.disp.slot s.link.tx) (hreply : s.disp.slot ≠ .empty)
    (herrors : s.link.errors ≤ Config.counterMax) : LinkLaw s := ⟨hslot, fun _ => hreply, fun _ => hreply, herrors⟩

/-! ### A notice begun on a free transmitter -/

/-- What the link law reads of a state. -/
abbrev State.linkView (s : State) : Dispatcher × Option Frame × Nat × Option TxFrame :=
  (s.disp, s.link.holding, s.link.errors, s.link.tx)

/-- Of what the link law reads, nothing has changed but that a free transmitter may have begun a notice. -/
structure NoticeBegun (s t : State) : Prop where
  disp : t.disp = s.disp
  holding : t.link.holding = s.link.holding
  errors : t.link.errors = s.link.errors
  line : t.link.tx = s.link.tx ∨ s.link.tx = none ∧ ∃ x ∈ t.link.tx, x.source = .notice

theorem NoticeBegun.beside {s t : State} (h : t.linkView = s.linkView) : NoticeBegun s t := by
  simp only [Prod.mk.injEq] at h
  obtain ⟨hd, hh, he, hx⟩ := h
  exact ⟨hd, hh, he, .inl hx⟩

theorem NoticeBegun.refl (s : State) : NoticeBegun s s := .beside rfl

theorem NoticeBegun.trans {s t u : State} (h : NoticeBegun s t) (g : NoticeBegun t u) : NoticeBegun s u := by
  refine ⟨g.disp.trans h.disp, g.holding.trans h.holding, g.errors.trans h.errors, ?_⟩
  obtain hx | ⟨hfree, x, hx, hn⟩ := h.line
  · rw [← hx]
    exact g.line
  · obtain gx | ⟨gfree, -⟩ := g.line
    · exact .inr ⟨hfree, x, gx ▸ hx, hn⟩
    · rw [gfree] at hx
      cases hx

/-- A line without a reply has none after it. -/
theorem NoticeBegun.noReplyOn {s t : State} (h : NoticeBegun s t) (hs : NoReplyOn s.link.tx) : NoReplyOn t.link.tx := by
  obtain hx | ⟨-, x, hx, hn⟩ := h.line
  · rw [hx]
    exact hs
  · rw [Option.mem_def.1 hx]
    exact noReplyOn_some.2 hn

theorem NoticeBegun.linkLaw {s t : State} (h : NoticeBegun s t) (hs : LinkLaw s) : LinkLaw t := by
  obtain ⟨hslot, hheld, hreset, herrors⟩ := hs
  rw [LinkLaw, h.disp, h.holding, h.errors]
  refine ⟨?_, hheld, hreset, herrors⟩
  obtain hx | ⟨hfree, -⟩ := h.line
  · rw [hx]
    exact hslot
  · rw [hfree] at hslot
    rw [slotOnLine_free hslot, slotOnLine_empty]
    exact h.noReplyOn (hfree ▸ noReplyOn_free)

theorem noticeBegun_sendNotice {s : State} (h : s.link.tx = none) : NoticeBegun s (sendNotice s) := by
  obtain ⟨-, hs⟩ | ⟨f, n, -, hs⟩ := sendNotice_cases s <;> rw [hs]
  · exact .refl s
  · exact ⟨rfl, rfl, rfl, .inr ⟨h, TxFrame.begun .notice f s.now, rfl, rfl⟩⟩

theorem noticeBegun_takeRaised (s : State) : NoticeBegun s (takeRaised s) := by
  obtain ⟨-, order, -, taken⟩ := takeRaisedUpTo_taken _ s rfl
  have hh := congrArg (fun u : State => u.link.holding) (State.besideNotices_takeRaised s)
  have he := congrArg (fun u : State => u.link.errors) (State.besideNotices_takeRaised s)
  obtain ⟨hx, hd, -⟩ | ⟨hfree, -, -, f, -, -, -, -, -, hd, hx⟩ := taken
  · exact ⟨hd, hh, he, .inl hx⟩
  · exact ⟨hd, hh, he, .inr ⟨hfree, _, hx, rfl⟩⟩

theorem noticeBegun_raiseAll (rs : List Raised) {s u : State} (hu : u.linkView = s.linkView) : NoticeBegun s (raiseAll rs u) :=
  .trans (t := { u with raising := u.raising ++ rs }) (.beside hu) (noticeBegun_takeRaised _)

/-! ### Swaps, cycles and causes -/

theorem noticeBegun_handOn (s : State) : NoticeBegun s (handOn s) := by
  rw [handOn_eq]
  exact noticeBegun_raiseAll _ rfl

theorem noticeBegun_enterStopped (now : Bool) (cut : List Raised) (s : State) : NoticeBegun s (enterStopped now cut s) := by
  rw [enterStopped_eq]
  exact noticeBegun_raiseAll _ rfl

theorem noticeBegun_stopEngine (now : Bool) (s : State) : NoticeBegun s (stopEngine now s) := by
  unfold stopEngine
  split
  · exact .refl s
  · exact noticeBegun_enterStopped _ _ s
  · split
    · exact noticeBegun_enterStopped _ _ s
    · exact .beside rfl

theorem noticeBegun_boundary (flywheel : Bool) (source : Option NoticeKind) (s : State) :
    NoticeBegun s (boundary flywheel source s) := by
  unfold boundary
  split
  · rw [stopAtBoundary_eq]
    exact noticeBegun_raiseAll _ rfl
  · have sourced : NoticeBegun (takeRaised s) (((takeRaised s).entersCycle flywheel).raisedBy source) := by
      cases source <;> exact .beside rfl
    rw [newCycle_eq]
    exact ((noticeBegun_takeRaised s).trans sourced).trans (noticeBegun_handOn _)

theorem noticeBegun_risingEdge (s : State) : NoticeBegun s (risingEdge s) := by
  unfold risingEdge
  split
  · exact .trans (t := { s with engine := Engine.startCycle s.now s.engine }) (.beside rfl) (noticeBegun_handOn _)
  · split <;> exact noticeBegun_boundary _ _ s
  · exact .refl s

theorem linkView_applyCause (c : Cause) (s : State) : (applyCause c s).linkView = s.linkView := by
  unfold applyCause raise
  split <;> rfl

theorem noticeBegun_confirmChannel (ch : ChanIx) (s : State) : NoticeBegun s (confirmChannel ch s) := by
  unfold confirmChannel
  split
  · exact noticeBegun_raiseAll _ rfl
  · exact .refl s

/-! ### The arbiter -/

/-- A reply waits and TXD is free or carries a notice. -/
structure ReplyWaits (s : State) : Prop where
  slot : ∃ r, s.disp.slot = .waiting r
  line : NoReplyOn s.link.tx
  errors : s.link.errors ≤ Config.counterMax

/-- Behind a frame on TXD the reply waits as the law has it. -/
theorem ReplyWaits.linkLaw {s : State} (h : ReplyWaits s) (hx : s.link.tx ≠ none) : LinkLaw s := by
  obtain ⟨⟨r, hr⟩, hline, herrors⟩ := h
  obtain ⟨x, hx⟩ := Option.ne_none_iff_exists'.1 hx
  refine linkLaw_of_reply ?_ (by simp [hr]) herrors
  rw [hx] at hline ⊢
  rw [hr]
  exact noReplyOn_some.1 hline

/-- The law holds, or it will once the arbiter has been asked: while no hardware reset lasts a reply may wait behind a free
transmitter. -/
def Askable (s : State) : Prop := LinkLaw s ∨ s.hwReset = none ∧ ReplyWaits s

theorem linkLaw_beginReply {s : State} {r : Frame} (h : s.link.errors ≤ Config.counterMax) :
    LinkLaw (beginFrame .reply r { s with disp := { s.disp with slot := .inTransmission r } }) :=
  linkLaw_of_reply ⟨rfl, rfl⟩ (by simp [beginFrame]) h

/-- Asked under the law, a free transmitter finds no reply waiting. -/
theorem noticeBegun_arbitrate {s : State} (h : LinkLaw s) : NoticeBegun s (arbitrate s) := by
  obtain ⟨hslot, -⟩ := h
  unfold arbitrate
  split
  · exact .refl s
  · next hfree =>
    obtain ⟨-, hx⟩ : s.hwReset = none ∧ s.link.tx = none := by simpa using hfree
    rw [hx] at hslot
    rw [slotOnLine_free hslot]
    exact noticeBegun_sendNotice hx

theorem Askable.arbitrate {s : State} (h : Askable s) : LinkLaw (arbitrate s) := by
  obtain h | ⟨hw, h⟩ := h
  · exact (noticeBegun_arbitrate h).linkLaw h
  · by_cases hx : s.link.tx = none
    · obtain ⟨⟨r, hr⟩, -, herrors⟩ := h
      rw [arbitrate_reply hw hx hr]
      exact linkLaw_beginReply herrors
    · rw [arbitrate_busy (Option.isSome_iff_ne_none.2 hx)]
      exact h.linkLaw hx

theorem LinkLaw.arbitrate {s : State} (h : LinkLaw s) : LinkLaw (arbitrate s) := Askable.arbitrate (.inl h)

/-- The transmitter is free and has a notice on offer (R166). -/
theorem noticeReady_iff {s : State} :
    noticeReady s = true ↔ s.hwReset = none ∧ s.link.tx = none ∧ ∃ p, s.notices.offer s.now = some p := by
  simp only [noticeReady, Bool.and_eq_true, Option.isNone_iff_eq_none, Option.isSome_iff_exists, and_assoc]

/-- A notice sent before the reply that waits. -/
theorem Askable.sendNotice {s : State} (h : Askable s) (hready : noticeReady s = true) : LinkLaw (sendNotice s) := by
  obtain ⟨-, hx, ⟨f, n⟩, hoffer⟩ := noticeReady_iff.1 hready
  have begun := noticeBegun_sendNotice hx
  obtain h | ⟨-, hslot, hline, herrors⟩ := h
  · exact begun.linkLaw h
  · refine ReplyWaits.linkLaw ⟨begun.disp ▸ hslot, begun.noReplyOn hline, begun.errors ▸ herrors⟩ ?_
    rw [sendNotice_offer hoffer]
    simp [beginFrame]

theorem Askable.arbitrateAfter {s : State} (h : Askable s) (ready : Bool) : LinkLaw (arbitrateAfter ready s) := by
  obtain ⟨k, hk⟩ := choose_state 2 s
  have chosen : Askable { s with choices := k } :=
    h.imp id fun ⟨hw, hslot, hline, herrors⟩ => ⟨hw, hslot, hline, herrors⟩
  unfold Machine.arbitrateAfter
  split
  · next hr =>
    obtain ⟨-, hready⟩ := Bool.and_eq_true_iff.1 hr
    dsimp only
    rw [hk]
    split
    · exact chosen.sendNotice hready
    · exact chosen.arbitrate
  · exact h.arbitrate

/-! ### Requests -/

/-- The state in which the Dispatcher carries a request out: no reply in the slot or on TXD. -/
structure Serving (s : State) : Prop where
  slot : s.disp.slot = .empty
  line : NoReplyOn s.link.tx
  errors : s.link.errors ≤ Config.counterMax

theorem NoticeBegun.serving {s t : State} (h : NoticeBegun s t) (hs : Serving s) : Serving t :=
  ⟨by rw [h.disp, hs.slot], h.noReplyOn hs.line, h.errors ▸ hs.errors⟩

theorem LinkLaw.serving {s : State} (h : LinkLaw s) (hs : s.disp.slot = .empty) : Serving s := by
  obtain ⟨hslot, -, -, herrors⟩ := h
  exact ⟨hs, slotOnLine_empty.1 (hs ▸ hslot), herrors⟩

/-- A request may let a free transmitter begin a notice. -/
theorem Carry.keeps_serving {carry : Carry} (h : ∀ (body : List Byte) (s : State), NoticeBegun s (carry body s).1) :
    carry.Keeps Serving := fun body s => (h body s).serving

theorem withLength_noticeBegun {n : Nat} {body : List Byte} {s : State} {k : State × List Byte} (hk : NoticeBegun s k.1) :
    NoticeBegun s (withLength n body s k).1 := by
  unfold withLength
  split
  · exact hk
  · exact .refl s

/-- STATUS may clear the error count (R178). -/
theorem carryStatus_keeps_serving : carryStatus.Keeps Serving := fun body s h => withLength_keeps h <| by
  cases flagAt body 0 with
  | none => exact h
  | some clear =>
    cases clear
    · exact h
    · exact ⟨h.slot, h.line, Nat.zero_le _⟩

/-- RESET sets the soft-reset flag (R179). -/
theorem carryReset_keeps_serving : carryReset.Keeps Serving := fun _ _ h => withLength_keeps h ⟨h.slot, h.line, h.errors⟩

theorem carryStop_keeps_serving : carryStop.Keeps Serving := Carry.keeps_serving fun body s => withLength_noticeBegun <| by
  cases flagAt body 0 with
  | none => exact .refl s
  | some now => exact noticeBegun_stopEngine now s

theorem carryPlanCommit_keeps_serving : carryPlanCommit.Keeps Serving := Carry.keeps_serving fun body s => withLength_noticeBegun <| by
  split
  · exact .refl s
  · split
    · exact .refl s
    · dsimp only
      split
      · exact noticeBegun_raiseAll _ rfl
      · exact .beside rfl

theorem carrySafe_keeps_serving : carrySafe.Keeps Serving :=
  Carry.keeps_serving fun _ s => withLength_noticeBegun (.beside (linkView_applyCause .request s))

/-- Every request of section 10.6. Those not spoken of before answer, in every branch of their checks, with a state whose link is as it
was. -/
theorem requestTable_keeps_serving : ∀ x ∈ requestTable, Carry.Keeps Serving x.2 := by
  simp only [requestTable, List.forall_mem_cons, List.not_mem_nil, false_implies, implies_true, and_true]
  refine ⟨?_, carryStatus_keeps_serving, carryReset_keeps_serving, ?_, ?_, carryStop_keeps_serving, ?_, ?_, ?_, ?_, ?_, ?_,
    carryPlanCommit_keeps_serving, ?_, ?_, ?_, ?_, ?_, ?_, ?_, ?_, carrySafe_keeps_serving, ?_, ?_⟩
  all_goals
    refine Carry.keeps_serving fun body s => .beside ?_
    simp only [carryIdentify, carryCycleSet, carryStart, carryStepPut, carryStepDrop, carryPlanHead, carryPlanClear, carryPlanCopy,
      carryPlanRead, carryCommitCancel, carryChanSet, carryChanRelease, carryChanRead, carryChanEdge, carryQueuePut, putLevels,
      putBursts, carryQueueTake, carryQueueFlush, carryResume, carrySilenceSet, withLength, editStandby]
    repeat' split
    all_goals rfl

/-- The Dispatcher has served a request: its reply waits (R170, R171). -/
theorem serve_replyWaits {s : State} (h : Serving s) (f : Frame) (kind : Byte) : ReplyWaits (serve f (carryOf kind) s) := by
  have carried : Serving (carryOf kind f.body s.taken).1 :=
    carryOf_keeps requestTable_keeps_serving kind f.body s.taken ⟨h.slot, h.line, h.errors⟩
  unfold serve
  dsimp only
  split
  · split
    · exact ⟨⟨_, rfl⟩, h.line, h.errors⟩
    · exact ⟨⟨_, rfl⟩, carried.line, carried.errors⟩
  · exact ⟨⟨_, rfl⟩, carried.line, carried.errors⟩

theorem linkLaw_dispatch {s : State} (h : LinkLaw s) (f : Frame) (kind : Byte) : LinkLaw (dispatch f (carryOf kind) s) := by
  unfold dispatch
  split
  · next ht =>
    have hw : (serve f (carryOf kind) s).hwReset = none :=
      serve_keeps (blockLaw_hwReset none) (carryOf_keeps_hwReset kind none) f (hwReset_of_canTake ht)
    simp only [canTake, Bool.and_eq_true, beq_iff_eq] at ht
    obtain ⟨⟨-, hs⟩, -⟩ := ht
    exact Askable.arbitrateAfter (.inr ⟨hw, serve_replyWaits (h.serving hs) f kind⟩) _
  · exact h

/-- The request in the holding buffer is served, or there is none and nothing is pending (R171). -/
theorem askable_serveHeld {s : State} (hw : s.hwReset = none) (h : Serving s) (hr : s.disp.softReset = false) :
    Askable (serveHeld s) := by
  cases hh : s.link.holding with
  | none =>
    rw [serveHeld_none hh]
    refine .inl ⟨?_, by simp [hh], by simp [hr], h.errors⟩
    rw [h.slot]
    exact slotOnLine_empty.2 h.line
  | some f =>
    refine .inr ⟨(hwReset_serveHeld s).trans hw, ?_⟩
    rw [serveHeld_some hh h.slot]
    exact serve_replyWaits h f f.kind

/-! ### Characters -/

/-- A link error is counted up to the limit, or swept away by a clearing STATUS of its instant (R163). -/
theorem linkError_cases (s : State) : (∃ k, linkError s = { s with choices := k }) ∨
    ∃ k, linkError s = { s with choices := k, link := { s.link with errors := satSucc Config.counterMax s.link.errors } } := by
  obtain ⟨k, hk⟩ := choose_state 2 s
  unfold linkError
  dsimp only
  rw [hk]
  split
  · split
    · exact .inl ⟨k, rfl⟩
    · exact .inr ⟨k, rfl⟩
  · exact .inr ⟨s.choices, rfl⟩

theorem LinkLaw.linkError {s : State} (h : LinkLaw s) : LinkLaw (linkError s) := by
  obtain ⟨k, hs⟩ | ⟨k, hs⟩ := linkError_cases s <;> rw [hs]
  · exact h
  · obtain ⟨hslot, hheld, hreset, herrors⟩ := h
    exact ⟨hslot, hheld, hreset, satSucc_le herrors⟩

theorem LinkLaw.abandon {s : State} (h : LinkLaw s) : LinkLaw (abandon s) := LinkLaw.linkError (s := setRx .hunt s) h

theorem linkView_takeAck (body : List Byte) (s : State) : (takeAck body s).linkView = s.linkView := by
  unfold takeAck
  split <;> rfl

theorem linkLaw_offerRequest {s : State} (hw : s.hwReset = none) (h : LinkLaw s) (f : Frame) : LinkLaw (offerRequest f s) := by
  cases hh : s.link.holding with
  | some g =>
    rw [offerRequest_discarded (by rw [hh]; rfl)]
    exact h.linkError
  | none =>
    by_cases hs : s.disp.slot = .empty
    · obtain ⟨-, hline, herrors⟩ := h.serving hs
      obtain ⟨-, -, hreset, -⟩ := h
      rw [offerRequest_served hh hs]
      refine Askable.arbitrateAfter (askable_serveHeld (s := { s with link := { s.link with holding := some f } }) hw
        ⟨hs, hline, herrors⟩ ?_) _
      exact Bool.eq_false_iff.2 fun hr => hreset hr hs
    · obtain ⟨hslot, -, -, herrors⟩ := h
      rw [offerRequest_waits hh hs]
      exact linkLaw_of_reply hslot hs herrors

theorem linkLaw_judgeFrame {s : State} (hw : s.hwReset = none) (h : LinkLaw s) (f : Frame) (received : Nat) :
    LinkLaw (judgeFrame f received s) := by
  by_cases bad : (crc f.covered).toNat ≠ received ∨ 0x80 ≤ f.kind.toNat
  · rw [judgeFrame_discarded bad]
    exact LinkLaw.linkError (s := setRx .hunt s) h
  · obtain ⟨hcrc, hkind⟩ := not_or.1 bad
    rw [judgeFrame_valid (not_not.1 hcrc) (Nat.not_le.1 hkind)]
    split
    · exact LinkLaw.arbitrate ((NoticeBegun.beside (s := s) (linkView_takeAck f.body (restartSilence (setRx .hunt s)))).linkLaw h)
    · exact linkLaw_offerRequest (s := restartSilence (setRx .hunt s)) hw h f

theorem linkLaw_receiveByte {s : State} (hw : s.hwReset = none) (h : LinkLaw s) (b : Byte) : LinkLaw (receiveByte b s) := by
  cases ht : s.link.rx.take s.now b with
  | mk r heard =>
    cases heard with
    | nothing =>
      rw [receiveByte_nothing ht]
      exact h
    | abandoned =>
      rw [receiveByte_abandoned ht]
      exact LinkLaw.linkError (s := setRx r s) h
    | complete f received =>
      rw [receiveByte_complete ht]
      exact linkLaw_judgeFrame (s := setRx r s) hw h f received

theorem linkLaw_receiveFaulty {s : State} (h : LinkLaw s) : LinkLaw (receiveFaulty s) := by
  unfold receiveFaulty
  dsimp only
  split
  · exact h
  · exact LinkLaw.abandon (s := { s with link := { s.link with front := .awaitingHigh } }) h

theorem answers_onCharacter {k : State → State} (hk : ∀ u : State, u.hwReset = none → LinkLaw u → LinkLaw (k u)) {s : State}
    (h : LinkLaw s) : Answers LinkLaw (onCharacter k s) := by
  refine answers_whenPowered h fun hw => ?_
  split
  · exact h
  · exact hk _ hw h
  · exact hk _ hw h

/-! ### The walker -/

/-- The reply to a QUEUE_PUT of the instant keeps its place in the slot and on TXD (R88). -/
theorem linkLaw_reportFill (ch : ChanIx) (fill : Nat) {s : State} (h : LinkLaw s) : LinkLaw (reportFill ch fill s) := by
  unfold reportFill
  split
  · obtain ⟨hslot, hheld, hreset, herrors⟩ := h
    cases hs : s.disp.slot with
    | empty =>
      rw [hs] at hslot hheld hreset
      exact ⟨hslot, hheld, hreset, herrors⟩
    | waiting r =>
      rw [hs] at hslot
      exact linkLaw_of_reply (slotOnLine_waiting_any hslot) (by simp [ReplySlot.map]) herrors
    | inTransmission r =>
      rw [hs] at hslot
      refine linkLaw_of_reply ?_ (by simp [ReplySlot.map]) herrors
      cases hx : s.link.tx with
      | none =>
        rw [hx] at hslot
        exact hslot.elim
      | some x =>
        rw [hx] at hslot
        obtain ⟨hsource, -⟩ := hslot
        exact ⟨hsource, rfl⟩
  · exact h

theorem linkLaw_handOff {slot : SlotIx} {st : Step} {cycle : CycleNo} {s t : State} {rs : List Raised} (h : LinkLaw s)
    (ho : handOff slot st cycle s = some (t, rs)) : LinkLaw t := by
  unfold handOff handEmit handSample handOpen handClose at ho
  split at ho
  · split at ho
    · split at ho <;> cases ho
      · exact h
      · exact linkLaw_reportFill _ _ h
    · split at ho <;> cases ho
      · exact h
      · exact linkLaw_reportFill _ _ h
    · cases ho
  · split at ho <;> cases ho
    exact h
  · split at ho <;> cases ho
    exact h
  · split at ho <;> cases ho
    exact h
  · cases ho
    exact h

theorem linkLaw_settleFirings {s : State} (h : LinkLaw s) : LinkLaw (settleFirings s) := by
  unfold settleFirings
  split
  · exact h
  · exact ((noticeBegun_takeRaised s).linkLaw h).arbitrate

theorem stepFire_linkLaw {s : State} (h : LinkLaw s) : Answers LinkLaw (execStepFire s) := by
  unfold execStepFire
  split
  · exact answers_next h
  · split
    · exact answers_next h
    · exact fun t ht => nomatch ht
    · next st _ _ =>
      split
      · unfold fireStep
        split
        · exact fun t ht => nomatch ht
        · next t rs ho =>
          have fired : LinkLaw t := linkLaw_handOff h ho
          exact answers_next
            (linkLaw_settleFirings (s := { t with walk := t.walk.passed st, raising := t.raising ++ rs }) fired)
      · exact answers_next h

/-! ### The end of a reply, and hardware resets -/

/-- A frame due is on TXD, and no hardware reset lasts. -/
theorem frameDue_onLine {src : TxSource} {s : State} (h : frameDue src s = true) :
    s.hwReset = none ∧ ∃ x, s.link.tx = some x ∧ x.source = src := by
  simp only [frameDue, Bool.and_eq_true, Option.isNone_iff_eq_none] at h
  obtain ⟨hw, h⟩ := h
  cases hx : s.link.tx with
  | none => simp [hx] at h
  | some x =>
    simp only [hx, Bool.and_eq_true, beq_iff_eq] at h
    obtain ⟨hsource, -⟩ := h
    exact ⟨hw, x, rfl, hsource⟩

theorem noticeBegun_maybeSendNotice (s : State) : NoticeBegun s (maybeSendNotice s) := by
  unfold maybeSendNotice
  obtain ⟨k, hk⟩ := choose_state 2 s
  split
  · next hr =>
    obtain ⟨-, hx, -⟩ := noticeReady_iff.1 hr
    dsimp only
    rw [hk]
    split
    · exact .trans (t := { s with choices := k }) (.beside rfl) (noticeBegun_sendNotice hx)
    · exact .beside rfl
  · exact .refl s

theorem noticeBegun_maybeSendBefore (s : State) : NoticeBegun s (maybeSendBefore s) := by
  unfold maybeSendBefore
  split
  · exact noticeBegun_maybeSendNotice s
  · exact .refl s

theorem hwReset_maybeSendBefore (s : State) : (maybeSendBefore s).hwReset = s.hwReset := (linkMoves_maybeSendBefore s).hwReset

/-- The slot and TXD empty; what is pending takes effect, the request in the buffer is served, and the arbiter is asked (R167, R171,
R180). -/
theorem replySent_linkLaw {s : State} (h : LinkLaw s) : Answers LinkLaw (exec .replySent s) := by
  by_cases hd : frameDue .reply s = true
  · obtain ⟨hw, -⟩ := frameDue_onLine hd
    obtain ⟨-, -, -, herrors⟩ := h
    have freed : Serving s.freed := ⟨rfl, noReplyOn_free, herrors⟩
    cases hr : s.disp.softReset with
    | true =>
      rw [exec_replySent_soft hd hr]
      exact answers_next (Askable.arbitrate (askable_serveHeld hw ⟨rfl, freed.line, freed.errors⟩ rfl))
    | false =>
      have begun := noticeBegun_maybeSendBefore s.freed
      rw [exec_replySent_plain hd hr]
      refine answers_next (Askable.arbitrateAfter (askable_serveHeld ?_ (begun.serving freed) ?_) _)
      · exact (hwReset_maybeSendBefore _).trans hw
      · rw [begun.disp]
        exact hr
  · exact answers_ite (fun hd' => absurd hd' hd) h

/-- A notice frame ends with the slot empty or a reply waiting (R166, R167). -/
theorem noticeFrameSent_linkLaw {s : State} (h : LinkLaw s) : Answers LinkLaw (exec .noticeFrameSent s) := by
  refine answers_ite (fun hd => Askable.arbitrate ?_) h
  obtain ⟨hw, x, hx, hsource⟩ := frameDue_onLine hd
  obtain ⟨hslot, hheld, hreset, herrors⟩ := h
  rw [hx] at hslot
  cases hs : s.disp.slot with
  | empty => exact .inl ⟨by rw [freeTransmitter, hs]; trivial, hheld, hreset, herrors⟩
  | waiting r => exact .inr ⟨hw, ⟨r, hs⟩, noReplyOn_free, herrors⟩
  | inTransmission r =>
    rw [hs] at hslot
    obtain ⟨hreply, -⟩ := hslot
    exact absurd (hreply.symm.trans hsource) (by decide)

theorem hardwareResetEnd_linkLaw {s : State} (h : LinkLaw s) (samples : FirstSamples) (midCharacter : Bool) :
    Answers LinkLaw (exec (.hardwareResetEnd samples midCharacter) s) := by
  obtain ⟨nstop, sync⟩ := samples
  obtain ⟨-, ends, -, unaffected⟩ := hardwareResets s
  cases hw : s.hwReset with
  | none =>
    rw [unaffected nstop sync midCharacter hw]
    exact answers_next h
  | some cause =>
    rw [ends cause nstop sync midCharacter hw]
    exact answers_next ⟨trivial, nofun, nofun, Nat.zero_le _⟩

/-! ### All commands, and all steps -/

theorem exec_linkLaw {s : State} (h : LinkLaw s) (c : Instr) : Answers LinkLaw (exec c s) := by
  have asked {u : State} (hu : NoticeBegun s u) : LinkLaw (arbitrate u) := (hu.linkLaw h).arbitrate
  cases hf : requestFrame? c with
  | some f =>
    rw [exec_request hf]
    exact answers_next (linkLaw_dispatch h f f.kind)
  | none =>
    cases c
    case unknownKind seq kind body =>
      have hk : ¬ unknownKindCode kind = true := by simpa [requestFrame?] using hf
      show Answers LinkLaw (execUnknownKind seq kind body s)
      rw [execUnknownKind, if_neg hk]
      exact answers_next h
    case requestFrameReceived b => exact answers_onCharacter (fun _ hw hu => linkLaw_receiveByte hw hu b) h
    case ack b => exact answers_onCharacter (fun _ hw hu => linkLaw_receiveByte hw hu b) h
    case frameDiscarded b => exact answers_onCharacter (fun _ hw hu => linkLaw_receiveByte hw hu b) h
    case lengthByteAbove240 b => exact answers_onCharacter (fun _ hw hu => linkLaw_receiveByte hw hu b) h
    case byteTaken b => exact answers_onCharacter (fun _ hw hu => linkLaw_receiveByte hw hu b) h
    case framingError => exact answers_onCharacter (fun _ _ hu => linkLaw_receiveFaulty hu) h
    case gapLimit => exact answers_ite (fun _ => h.abandon) h
    case replySent => exact replySent_linkLaw h
    case noticeFrameSent => exact noticeFrameSent_linkLaw h
    case hardwareResetBegin cause => exact answers_next ⟨trivial, nofun, nofun, Nat.zero_le _⟩
    case hardwareResetEnd samples midCharacter => exact hardwareResetEnd_linkLaw h samples midCharacter
    case periodBoundary => exact answers_ite (fun _ => asked (noticeBegun_boundary _ _ s)) h
    case syncRisingEdge =>
      refine answers_whenPowered h fun _ => ?_
      split
      · exact h
      · exact asked (.trans (t := { s with pins := { s.pins with sync := .high } }) (.beside rfl) (noticeBegun_risingEdge _))
    case syncDeadline => exact answers_ite (fun _ => asked (noticeBegun_boundary _ _ s)) h
    case flywheelBoundary => exact answers_ite (fun _ => asked (noticeBegun_boundary _ _ s)) h
    case stepFire => exact stepFire_linkLaw h
    case burstOnPhaseEnd ch => exact answers_ite (fun _ => h) h
    case burstOffPhaseEnd ch => exact answers_ite (fun _ => h) h
    case edgeLineChange levels =>
      exact answers_whenPowered (s := { s with pins := { s.pins with lines := levels } }) h
        fun _ => NoticeBegun.linkLaw (s := s) (.beside rfl) h
    case debounceConfirmed ch => exact answers_ite (fun _ => asked (noticeBegun_confirmChannel ch s)) h
    case nstopLow =>
      refine answers_whenPowered h fun _ => ?_
      dsimp only
      split
      · exact h
      · exact asked (.beside (linkView_applyCause .stopLine { s with safe := { s.safe with nstop := .low } }))
    case nstopHigh => exact answers_whenPowered h fun _ => h
    case silenceTimerExpiry =>
      exact answers_ite (fun _ => asked (.beside (linkView_applyCause .silence { s with safe := { s.safe with timer := none } }))) h
    case retransmitTimerExpiry => exact answers_ite (fun _ => asked (.beside rfl)) h
    case syncFallingEdge => exact answers_whenPowered h fun _ => h
    all_goals cases hf

theorem linkLaw_idle {s : State} (h : LinkLaw s) : LinkLaw (idle s) := by
  unfold idle
  split
  · exact h
  · split
    · exact (noticeBegun_takeRaised s).linkLaw h
    · split
      · exact h.arbitrate
      · exact h

/-- Settles O58: every command, and what time does with none, keeps the link law. -/
theorem linkLawKept : Obligations.LinkLawKept := by
  intro s t h hstep
  cases hp : s.pending with
  | cons c rest =>
    simp only [step, hp] at hstep
    exact exec_linkLaw (s := { s with pending := rest }) h c t hstep
  | nil =>
    by_cases hd : dueEvents s = []
    · rw [step_idle hp hd] at hstep
      cases hstep
      exact linkLaw_idle h
    · obtain ⟨c, k, -, hexec⟩ := step_due hp hd
      rw [hexec] at hstep
      exact exec_linkLaw (s := { s with choices := k }) h c t hstep

end Sys2Proof.Machine
end

section
/-! PROOFS. The receiver and TXD (chapter 9): single characters and the gap limit, the bytes of a frame received one after another, and
the bits of a frame on TXD. -/

namespace Sys2Proof.Machine

/-! ### The receiver takes a byte (R159, R160) -/

theorem take_start (now : Nat) : Receiver.hunt.take now Config.startByte = (.within now .len, .nothing) := rfl

theorem take_hunting {b : Byte} (h : b ≠ Config.startByte) (now : Nat) : Receiver.hunt.take now b = (.hunt, .nothing) := by
  rw [Receiver.take, if_neg h]

theorem take_length {b : Byte} (h : b.toNat ≤ Config.bodyMax) (now last : Nat) :
    (Receiver.within last .len).take now b = (.within now (.seq b), .nothing) := by
  simp [Receiver.take, Nat.not_lt.2 h]

theorem take_lengthAbove {b : Byte} (h : Config.bodyMax < b.toNat) (now last : Nat) :
    (Receiver.within last .len).take now b = (.hunt, .abandoned) := by
  simp [Receiver.take, h]

section
variable {len : Byte} (seq kind : Byte) (now last : Nat)

/-- With LEN 0 the CRC follows KIND. -/
theorem take_kind_noBody : (Receiver.within last (.kind 0 seq)).take now kind = (.within now (.check 0 seq kind [] none), .nothing) := rfl

theorem take_kind_body (h : len ≠ 0) :
    (Receiver.within last (.kind len seq)).take now kind = (.within now (.body len seq kind []), .nothing) := by
  rw [Receiver.take, if_neg h]

theorem take_body_more {got : List Byte} (h : got.length + 1 < len.toNat) (b : Byte) :
    (Receiver.within last (.body len seq kind got)).take now b = (.within now (.body len seq kind (got ++ [b])), .nothing) := by
  simp [Receiver.take, h]

theorem take_body_last {got : List Byte} (h : got.length + 1 = len.toNat) (b : Byte) :
    (Receiver.within last (.body len seq kind got)).take now b =
      (.within now (.check len seq kind (got ++ [b]) none), .nothing) := by
  simp [Receiver.take, h]

end

/-! ### Single characters (R157, R159 to R161, R168) -/

/-- The character under way as a hardware reset ended is not received (R168). -/
theorem onCharacter_leftOut {s : State} (hw : s.hwReset = none) (hf : s.link.front = .leavingOut) (k : State → State) :
    onCharacter k s = .next { s with link := { s.link with front := .seeking } } := by
  simp only [onCharacter, whenPowered, hw, hf]
  rfl

/-- A byte that completes nothing moves the receiver alone (R157, R159). -/
theorem onCharacter_nothing {b : Byte} {r : Receiver} {s : State} (hw : s.hwReset = none) (hf : s.link.front ≠ .leavingOut)
    (ht : s.link.rx.take s.now b = (r, .nothing)) :
    onCharacter (receiveByte b) s = .next { s with link := { s.link with rx := r, front := .seeking } } := by
  rw [onCharacter_received hw hf, receiveByte_nothing (s := { s with link := { s.link with front := .seeking } }) ht]
  rfl

/-- In HUNT a faulty character is discarded (R159). -/
theorem receiveFaulty_hunt {s : State} (h : s.link.rx = .hunt) :
    receiveFaulty s = { s with link := { s.link with front := .awaitingHigh } } := by
  simp only [receiveFaulty, h]

/-- Inside a frame a faulty character abandons it (R159). -/
theorem receiveFaulty_within {last : Nat} {part : Assembly} {s : State} (h : s.link.rx = .within last part) :
    receiveFaulty s = abandon { s with link := { s.link with front := .awaitingHigh } } := by
  simp only [receiveFaulty, h]

/-- A frame abandoned away from a clearing STATUS is one link error (R163). -/
theorem abandon_counted {s : State} (h : s.clearedAt ≠ some s.now) : abandon s =
    { s with link := { s.link with rx := .hunt, errors := satSucc Config.counterMax s.link.errors } } :=
  linkError_counted (s := setRx .hunt s) h

theorem gapDue_within {last : Nat} {part : Assembly} {s : State} (hw : s.hwReset = none) (hr : s.link.rx = .within last part)
    (hg : last + 2001 = s.now) : gapDue s = true := by simp [gapDue, hw, hr, hg]

/-- Settles O47: the receiver's answer to a character in each of its states. -/
theorem charactersReceived : Obligations.CharactersReceived := by
  intro s hw seen errors abandoned
  refine ⟨fun hf => ?_, fun hf hr => ⟨?_, fun b hb => ?_, ?_⟩, fun last hf hcl hr => ⟨fun b hb => ?_, fun b hb => ?_⟩,
    fun last part hcl hr => ⟨fun hf => ?_, fun hg => ?_⟩⟩
  · have leftOut : ∀ k, onCharacter k s = .next (seen .seeking) := onCharacter_leftOut hw hf
    exact ⟨leftOut _, fun b => ⟨leftOut _, leftOut _, leftOut _, leftOut _, leftOut _⟩⟩
  · exact onCharacter_nothing hw hf (hr ▸ take_start s.now)
  · exact onCharacter_nothing (r := s.link.rx) hw hf (hr ▸ take_hunting hb s.now)
  · exact (onCharacter_received hw hf _).trans
      (congrArg _ (receiveFaulty_hunt (s := { s with link := { s.link with front := .seeking } }) hr))
  · have taken : s.link.rx.take s.now b = (.hunt, .abandoned) := hr ▸ take_lengthAbove hb s.now last
    refine (onCharacter_received hw hf _).trans ?_
    rw [receiveByte_abandoned (s := { s with link := { s.link with front := .seeking } }) taken, linkError_counted]
    · rfl
    · exact hcl
  · exact onCharacter_nothing hw hf (hr ▸ take_length hb s.now last)
  · refine (onCharacter_received hw hf _).trans ?_
    rw [receiveFaulty_within (s := { s with link := { s.link with front := .seeking } }) hr, abandon_counted]
    · rfl
    · exact hcl
  · have due : gapDue s = true := gapDue_within hw hr hg
    exact congrArg Host.Outcome.next ((if_pos due).trans (abandon_counted hcl))

/-! ### The bytes of a frame (R158, R159, section 12.2) -/

/-- The receiver reads the two CRC bytes as they were written (R182). -/
theorem read_le16 (c : BitVec 16) : (byteOf c.toNat).toNat + 256 * (byteOf (c.toNat / 256)).toNat = c.toNat :=
  (read16_of_le16 (body := le16 c.toNat) (i := 0) rfl).trans (Nat.mod_eq_of_lt c.isLt)

/-- A byte that completes nothing, from a receiver that has been moved. -/
theorem receiveByte_setRx {b : Byte} {r r' : Receiver} {s : State} (h : r.take s.now b = (r', .nothing)) :
    receiveByte b (setRx r s) = setRx r' s := receiveByte_nothing (s := setRx r s) h

/-- The rest of a body is received, and the receiver then waits for the CRC (R159). -/
theorem receive_body {len seq kind : Byte} {rest : List Byte} (hne : rest ≠ []) {got : List Byte}
    (hlen : got.length + rest.length = len.toNat) (last : Nat) (s : State) :
    rest.foldl (fun u b => receiveByte b u) (setRx (.within last (.body len seq kind got)) s) =
      setRx (.within s.now (.check len seq kind (got ++ rest) none)) s := by
  induction rest generalizing got last with
  | nil => exact absurd rfl hne
  | cons b rest ih =>
    rw [List.length_cons] at hlen
    rw [List.foldl_cons]
    by_cases hrest : rest = []
    · subst hrest
      exact receiveByte_setRx (take_body_last seq kind s.now last hlen b)
    · have hpos : 0 < rest.length := List.length_pos_iff.2 hrest
      rw [receiveByte_setRx (take_body_more seq kind s.now last (by omega) b), ih hrest (by simp; omega), List.append_assoc]
      rfl

/-- From KIND on: the receiver takes the body that LEN announces, and then waits for the CRC (R159). -/
theorem receive_kind_body {len : Byte} {body : List Byte} (hlen : len.toNat = body.length) (seq kind : Byte) (s : State) :
    (kind :: body).foldl (fun u b => receiveByte b u) (setRx (.within s.now (.kind len seq)) s) =
      setRx (.within s.now (.check len seq kind body none)) s := by
  rw [List.foldl_cons]
  by_cases hbody : body = []
  · obtain rfl : len = 0 := BitVec.eq_of_toNat_eq (by rw [hlen, hbody]; rfl)
    rw [hbody]
    exact receiveByte_setRx (take_kind_noBody seq kind s.now s.now)
  · have hne : len ≠ 0 := by
      rintro rfl
      exact hbody (List.length_eq_zero_iff.1 hlen.symm)
    rw [receiveByte_setRx (take_kind_body seq kind s.now s.now hne), receive_body hbody (by simp [hlen])]
    rfl

/-- The bytes of a frame up to its body (R159, section 12.2). -/
theorem receive_covered {f : Frame} {s : State} (hlen : f.body.length ≤ 240) (hr : s.link.rx = .hunt) :
    (Config.startByte :: f.covered).foldl (fun u b => receiveByte b u) s =
      setRx (.within s.now (.check (byteOf f.body.length) f.seq f.kind f.body none)) s := by
  have hn : (byteOf f.body.length).toNat = f.body.length := (byteOf_toNat _).trans (Nat.mod_eq_of_lt (by omega))
  have start : receiveByte Config.startByte s = setRx (.within s.now .len) s := receiveByte_nothing (hr ▸ take_start s.now)
  have length : receiveByte (byteOf f.body.length) (setRx (.within s.now .len) s) =
      setRx (.within s.now (.seq (byteOf f.body.length))) s :=
    receiveByte_setRx (take_length (hn.trans_le hlen) s.now s.now)
  have sequence : receiveByte f.seq (setRx (.within s.now (.seq (byteOf f.body.length))) s) =
      setRx (.within s.now (.kind (byteOf f.body.length) f.seq)) s := receiveByte_setRx rfl
  rw [Frame.covered, List.foldl_cons, start, List.foldl_cons, length, List.foldl_cons, sequence]
  exact receive_kind_body hn f.seq f.kind s

/-- The bytes of a frame lead the receiver to its CRC, and the last of them has the frame judged with it (R158, R162). -/
theorem receive_frame {f : Frame} {s : State} (hlen : f.body.length ≤ 240) (hr : s.link.rx = .hunt) :
    f.bytes.foldl (fun u b => receiveByte b u) s = judgeFrame f (crc f.covered).toNat s := by
  have low : receiveByte (byteOf (crc f.covered).toNat)
        (setRx (.within s.now (.check (byteOf f.body.length) f.seq f.kind f.body none)) s) =
      setRx (.within s.now (.check (byteOf f.body.length) f.seq f.kind f.body (some (byteOf (crc f.covered).toNat)))) s :=
    receiveByte_setRx rfl
  rw [Frame.bytes, List.foldl_append, receive_covered hlen hr, le16, List.foldl_cons, low, List.foldl_cons, List.foldl_nil,
    receiveByte_complete (s := setRx _ s) rfl, read_le16]
  rfl

/-! ### TXD (R157, R165, R168) -/

section
variable {bytes : List Byte} {k j : Nat}

/-- The level of bit `j` of character `k` (R157). -/
theorem bitOnLine_some {b : Byte} (hj : j < 10) (hb : bytes[k]? = some b) : bitOnLine bytes (10 * k + j) =
    if j = 0 then .low else if j = 9 ∨ b.getLsbD (j - 1) then .high else .low := by
  have hk : (10 * k + j) / 10 = k := by omega
  have hmod : (10 * k + j) % 10 = j := by omega
  simp only [bitOnLine, hk, hmod, hb]

/-- Past the last character the line rests high (R157). -/
theorem bitOnLine_none (hj : j < 10) (hb : bytes[k]? = none) : bitOnLine bytes (10 * k + j) = .high := by
  have hk : (10 * k + j) / 10 = k := by omega
  simp only [bitOnLine, hk, hb]

end

/-- TXD shows the bit of the frame that is reached at 230,400 bits a second from its beginning (R157, R165). -/
theorem txdLevel_sending {s : State} {bytes : List Byte} {source : TxSource} {began : Nat}
    (hx : s.link.tx = some { bytes := bytes, source := source, endsAt := began + frameTime bytes.length }) :
    txdLevel s = bitOnLine bytes ((s.now - began) * 230400 / 1000000) := by
  simp only [txdLevel, hx, Nat.add_sub_add_right]

/-- Settles O46: the receiver follows the bytes of a frame, and TXD its bits. -/
theorem frameBytesReadBack : Obligations.FrameBytesReadBack := by
  refine ⟨fun f s hlen hr => receive_frame hlen hr, fun s => ⟨fun hx => ?_, fun bytes source began k j hx _ hn hj => ?_⟩⟩
  · simp only [txdLevel, hx]
  · have level : txdLevel s = bitOnLine bytes (10 * k + j) := hn ▸ txdLevel_sending hx
    refine ⟨fun b hb => ?_, fun hb => level.trans (bitOnLine_none hj hb)⟩
    rw [bitOnLine_some hj hb] at level
    refine ⟨fun start => level.trans (if_pos start), fun hmin hmax => level.trans ?_, fun stop => level.trans ?_⟩
    · have data : j ≠ 0 ∧ j ≠ 9 := by omega
      simp [data]
    · simp [stop]

end Sys2Proof.Machine
end

section
/-! PROOFS. Requests and replies (chapter 10): the duplicate of the last request, and the Dispatcher's own requests IDENTIFY, STATUS and
RESET, and the unknown kinds. -/

namespace Sys2Proof.Machine

/-! ### The duplicate request (R172) -/

/-- A duplicate has no notice to raise, so that the arbiter has no choice of its own: the cached reply is placed and it chooses. -/
theorem dispatch_duplicate {f r : Frame} {s : State} (ht : canTake f s = true) (hl : s.link.last = some (f, r)) (carry : Carry) :
    dispatch f carry s = arbitrate (placeReply r s.taken) := by
  have ready : noticeReady s = noticeReady (placeReply r s.taken) := rfl
  rw [dispatch, if_pos ht, serve_duplicate hl, ready, arbitrateAfter_same]

/-- Settles O3: the Dispatcher asks the cache before it carries the request out. -/
theorem duplicateAnsweredFromCache : Obligations.DuplicateAnsweredFromCache := fun c f r s hc ht hl =>
  calc exec c s
    _ = .next (dispatch f (carryOf f.kind) s) := exec_request hc s
    _ = .next (arbitrate (placeReply r s.taken)) := congrArg _ (dispatch_duplicate ht hl _)

/-! ### STATUS (R178) -/

/-- The flags do not overlap: the byte of section 12.3 is their sum. -/
theorem Engine.flagsByte_eq_sum (e : Engine) : e.flagsByte = flagByte e.stopPending + 2 * flagByte e.flywheel := by
  unfold Engine.flagsByte
  cases e.stopPending <;> cases e.flywheel <;> rfl

/-- The causes do not overlap: the byte of section 12.3 is their sum. -/
theorem CauseSet.byte_eq_sum (c : CauseSet) :
    c.byte = flagByte c.request + 2 * flagByte c.stopLine + 4 * flagByte c.silence := by
  unfold CauseSet.byte
  cases c.request <;> cases c.stopLine <;> cases c.silence <;> rfl

/-- STATUS with a flag that reads: the reply is formed first, and the count is cleared after it. -/
theorem carryStatus_flag {flag : Byte} {clear : Bool} (h : flagAt [flag] 0 = some clear) (s : State) :
    carryStatus [flag] s =
      (if clear then { s with link := { s.link with errors := 0 }, clearedAt := some s.now } else s,
        statusOk :: statusBytes s) := by
  simp only [carryStatus, h]
  rfl

theorem carryStatus_badValue {flag : Byte} (h : 1 < flag.toNat) (s : State) :
    carryStatus [flag] s = answer statusBadValue s := by
  simp only [carryStatus, flagAt_none (show 1 < natAt [flag] 0 from h)]
  rfl

/-- Settles O6: one clause for each reading of the flag. -/
theorem statusReports : Obligations.StatusReports := by
  intro seq flag s h reply
  have bytes : statusOk :: statusBytes s.taken = reply := by
    simp only [statusBytes, Engine.flagsByte_eq_sum, CauseSet.byte_eq_sum]
    rfl
  refine ⟨?_, ?_, fun hflag => exec_answer rfl h (carryStatus_badValue hflag s.taken)⟩
  · rintro rfl
    exact exec_answered (u := s) rfl h ((carryStatus_flag flagAt_zero s.taken).trans (congrArg _ bytes)) rfl
  · rintro rfl
    exact exec_answered rfl h ((carryStatus_flag flagAt_one s.taken).trans (congrArg _ bytes)) rfl

/-! ### IDENTIFY, RESET and the unknown kinds (R174, R177, R179) -/

theorem identity_bytes : identity = [0x32, 0x0F, 0x01, 0x20, 0x10, 0x30, 0x00, 0x02, 0x10] := rfl

theorem carryIdentify_nil (s : State) : carryIdentify [] s = (s, statusOk :: identity) := rfl

theorem carryReset_nil (s : State) :
    carryReset [] s = ({ s with disp := { s.disp with softReset := true } }, [statusOk]) := rfl

/-- A request of a kind that names none is refused whatever its body (R174). -/
theorem exec_unknownKind {seq kind : Byte} {body : List Byte} {s : State} (hk : unknownKindCode kind = true)
    (h : TakenAsNew ⟨seq, kind, body⟩ s) :
    exec (.unknownKind seq kind body) s = AnsweredFrom s ⟨seq, kind, body⟩ [statusUnknownKind] := by
  have frame : requestFrame? (.unknownKind seq kind body) = some ⟨seq, kind, body⟩ := if_pos hk
  refine exec_answer frame h ?_
  rw [carryOf_unknown hk]
  rfl

/-- Settles O5: each of the three is carried out in every state (R177, R179), and the kind alone decides on the last. -/
theorem identifyResetAndUnknownKind : Obligations.IdentifyResetAndUnknownKind := by
  refine fun seq s => ⟨fun h => ?_, fun h => ?_, fun kind body hk h => exec_unknownKind hk h⟩
  · rw [← identity_bytes]
    exact exec_answered (u := s) rfl h (carryIdentify_nil s.taken) rfl
  · exact exec_answered (u := { s with disp := { s.disp with softReset := true } }) rfl h (carryReset_nil s.taken) rfl

end Sys2Proof.Machine
end

section
/-! PROOFS. A step with a command waiting. Such a step looks at the queue alone: neither the events that are due nor the idle step have a
part in it (log 2). -/

namespace Sys2Proof.Machine

/-- Settles O1: a queue with a command at its front decides the step's case by itself. -/
theorem stepRunsFrontCommand : Obligations.StepRunsFrontCommand := by
  intro c rest s hp
  simp only [step, hp]

end Sys2Proof.Machine
end
